-- ==== Sys2Proof/Word.lean ====
section
/-! DEFINITION. The plain words of the W8C model: bytes, and the numbers by which the manual names its parts. -/

namespace Sys2Proof

/-- One byte of the link, of a record or of a bus frame. -/
abbrev Byte := BitVec 8

/-- A fixture number, 0 to 7 (00_scope.md, Conventions). -/
abbrev FixtureIx := Fin 8

/-- A stimulus channel number, 0 to 31 (section 4.1). -/
abbrev ChannelIx := Fin 32

/-- A discrete line number of a fixture, 0 to 7 (section 5.5). -/
abbrev LineIx := Fin 8

/-- A probe number, 0 to 127 (section 7.1). -/
abbrev ProbeIx := Fin 128

/-- A level of the two arbiters and a run's priority, 0 (most urgent) to 3. -/
abbrev Level := Fin 4

end Sys2Proof
end

