-- ==== Sys2Proof/Syntax.lean ====
section
/-! DEFINITION. The commands of the W8C: one constructor for each row of spec/opcode_table.json, with its operands. -/

namespace Sys2Proof

/-- The two debounced switches of a fixture (R1). -/
inductive Switch | presence | lid
  deriving DecidableEq, Repr

/-- The two operator consoles (R156). -/
inductive ConsoleId | a | b
  deriving DecidableEq, Repr

/-- The two buttons of a console (section 9.4). -/
inductive Button | pass | fail
  deriving DecidableEq, Repr

/-- The link rates of the link-rate strap pair (R186). -/
inductive LinkRate | r115200 | r230400 | r460800 | r921600
  deriving DecidableEq, Repr

/-- The fitted counts of the fitted-count strap pair (R186). -/
inductive FittedCount | two | four | six | eight
  deriving DecidableEq, Repr

/-- The four ways a transmit attempt ends (R115). -/
inductive AttemptOutcome | success | lostArbitration | noAcknowledge | busError
  deriving DecidableEq, Repr

/-- What the end of a frame's reception finds (R113). -/
inductive FrameKind | data | remote | damaged | own
  deriving DecidableEq, Repr

/-- A frame as it ends on a fixture's bus (R113). `dlc` is the data length code. `underWay` says that the frame was
already under way when the port became ACTIVE, so that the port does not receive it (R112; log 20). -/
structure BusFrame where
  kind : FrameKind
  extended : Bool
  id : BitVec 29
  dlc : BitVec 4
  data : List Byte
  underWay : Bool
  deriving DecidableEq, Repr

/-- The eight conversion codes a burst can bring. A burst of k samples reads the first k (R129, R130; log 21). -/
abbrev Codes := Vector (BitVec 12) 8

/-- The commands. A request carries its frame's tag and payload; the part itself reads the payload. -/
inductive Instr where
  -- requests
  | identify (tag : Byte) (payload : List Byte)
  | partStatus (tag : Byte) (payload : List Byte)
  | setLink (tag : Byte) (payload : List Byte)
  | resetPart (tag : Byte) (payload : List Byte)
  | openRun (tag : Byte) (payload : List Byte)
  | endRun (tag : Byte) (payload : List Byte)
  | abortRun (tag : Byte) (payload : List Byte)
  | clearRun (tag : Byte) (payload : List Byte)
  | fixtureStatus (tag : Byte) (payload : List Byte)
  | queueSteps (tag : Byte) (payload : List Byte)
  | readResults (tag : Byte) (payload : List Byte)
  | clearFault (tag : Byte) (payload : List Byte)
  | defineChannel (tag : Byte) (payload : List Byte)
  | readChannel (tag : Byte) (payload : List Byte)
  | clearChannel (tag : Byte) (payload : List Byte)
  | markBankReady (tag : Byte) (payload : List Byte)
  | writePattern (tag : Byte) (payload : List Byte)
  | readPattern (tag : Byte) (payload : List Byte)
  | defineWatch (tag : Byte) (payload : List Byte)
  | readWatch (tag : Byte) (payload : List Byte)
  | defineProbe (tag : Byte) (payload : List Byte)
  | readProbe (tag : Byte) (payload : List Byte)
  | lendMatrix (tag : Byte) (payload : List Byte)
  | reclaimMatrix (tag : Byte) (payload : List Byte)
  | setLendLimit (tag : Byte) (payload : List Byte)
  | configConsole (tag : Byte) (payload : List Byte)
  | consoleStatus (tag : Byte) (payload : List Byte)
  | unknownRequest (ty tag : Byte) (payload : List Byte)
  -- the rest of the link port
  | nonRequestFrame (ty tag : Byte) (payload : List Byte)
  | requestDropped (ty tag : Byte) (payload : List Byte)
  | frameCheckFailed
  | lengthAbove1200 (low high : Byte)
  | receiveGapExpiry
  | framingError
  | transmitStart
  | frameSent
  | silenceTimeout
  -- resets
  | powerOn (rate : LinkRate) (fitted : FittedCount)
  | brownout (rate : LinkRate) (fitted : FittedCount)
  -- fixtures and steps
  | fixtureSwitchRawChange (f : FixtureIx) (sw : Switch) (closed : Bool)
  | fixtureSenseDebounced (f : FixtureIx) (sw : Switch)
  | stepStart (f : FixtureIx)
  | stepTimeout (f : FixtureIx)
  | waitExpiry (f : FixtureIx)
  | quiescentReadingDue (f : FixtureIx)
  -- record arbiter, channels and outputs
  | recordGrant
  | transferEnd
  | dwellExpiry (c : ChannelIx)
  | periodStart (f : FixtureIx)
  | phaseBoundary (f : FixtureIx)
  | lineLevelChange (f : FixtureIx) (line : LineIx) (level : Bool)
  | captureOverflow (f : FixtureIx)
  -- bus ports
  | frameReceived (f : FixtureIx) (frame : BusFrame)
  | attemptStart (f : FixtureIx)
  | attemptEnd (f : FixtureIx) (outcome : AttemptOutcome)
  -- supplies and rack monitor
  | inRegulation (f : FixtureIx) (holds : Bool)
  | atLimitHolds (f : FixtureIx)
  | atLimitClears (f : FixtureIx)
  | below500mv (f : FixtureIx) (holds : Bool)
  | rampTimerExpiry (f : FixtureIx)
  | limitTimerExpiry (f : FixtureIx)
  | dischargeTimerExpiry (f : FixtureIx)
  | bypassComparator (f : FixtureIx)
  | rackLevel (mv : Nat)
  -- converter and matrix
  | burstGrant
  | settleEnd
  | senseReadyChange (f : FixtureIx) (ready : Bool)
  | readyWaitExpiry
  | burstEnd (codes : Codes)
  | referenceTimer
  | holdLineRise
  | holdLineDrop
  | lendGrant
  | lendLimitExpiry
  -- consoles
  | buttonDown (c : ConsoleId) (b : Button)
  | pressHeld (c : ConsoleId) (b : Button)
  | buttonUp (c : ConsoleId) (b : Button)
  | longTimeReached (c : ConsoleId) (b : Button)
  | stopSwitchRawChange (c : ConsoleId) (pressed : Bool)
  | consoleStop (c : ConsoleId)
  | flashClockPhase
  -- link bytes and logic supply
  | byteReceived (b : Byte)
  | logicSupplyLoss
  deriving DecidableEq, Repr

end Sys2Proof
end

