-- ==== Sys2Proof/Config.lean ====
section
/-! DEFINITION. What the manual leaves to the world outside the part: the free values. -/

namespace Sys2Proof

/-- The free bits (log 7 and 9): what an analog comparator answers, within the event, to a record that moves its
threshold, and which of two coinciding effects of one record is taken. Nothing is known of any of them; the state's
`freeIndex` says how many have been used. -/
opaque Config.freeBit : Nat → Bool

end Sys2Proof
end

