-- ==== Sys2Proof/Machine/State.lean ====
section
/-! DEFINITION. The state of the W8C as plain data. A field's default is its value after a power-on reset (R5, R52, R77,
R88, R97, R123, R124, R143, R173, R187); a pin has none in the manual, and its default is a choice (log 5). -/

namespace Sys2Proof.Machine

open Sys2Proof

/-- No command of the part stops it: the manual reports every error in a reply, a result, a notice or a flag
(R178, section 2.11), so there is no reason to fault. -/
inductive Fault
  deriving DecidableEq, Repr

/-- Why a command has no meaning in the model. -/
inductive Refusal where
  /-- Raised by `exec` alone, for a row of the table that has no meaning yet; safe, since nothing is then claimed. -/
  | notModelled (mnemonic : String)
  deriving DecidableEq, Repr

/-! ## Names the manual lists (section 11.1) -/

/-- run_state (section 1.2). -/
inductive RunState | none | active | closing | halting | ended
  deriving DecidableEq, Repr

/-- The failure policy of a run (R24). -/
inductive Policy | cont | skip | stop
  deriving DecidableEq, Repr

/-- The bit rate of a run's bus port (section 6.1). -/
inductive BusRate | k125 | k250 | k500
  deriving DecidableEq, Repr

/-- Verdicts in rising severity (R23). -/
inductive Verdict | pass | marginal | incomplete | fail
  deriving DecidableEq, Repr

/-- halt_reason (R11). -/
inductive HaltReason
  | none | abortRequest | policy | lid | supplyTrip | operatorReject | operatorStop | linkLost
  deriving DecidableEq, Repr

/-- Step reasons (section 2.11). -/
inductive Reason
  | none | aborted | clamped | txFull | rackLow | notBound | busy | channelFault | timeout | lineDisabled | watchDisabled
  | supplyNotOn | undefinedProbe | notReady | noEdges | ref | saturated | low | high | operator | noAnswer
  deriving DecidableEq, Repr

/-- Supply states (section 3.1). -/
inductive SupplyState | off | ramp | on | limit | discharge | tripped
  deriving DecidableEq, Repr

/-- trip_reason (section 3.1). -/
inductive TripReason | none | overcurrent | rampTimeout | rack
  deriving DecidableEq, Repr

/-- The current range of a supply (section 3.6). -/
inductive Range | high | low
  deriving DecidableEq, Repr

/-- The rack level (section 3.7). -/
inductive RackLevel | normal | low | cutoff
  deriving DecidableEq, Repr

/-- The three resets (R186). -/
inductive ResetCause | powerOn | brownout | command
  deriving DecidableEq, Repr

/-! ## Fixture sense and run record -/

/-- The switches of a fixture: raw pins, debounced levels and running debounces (R1), and the sense-ready pin. A debounce that has
run its 20 ms but is not yet taken outlasts a raw reversal; the debounce of the reversal waits in `presenceAfter` or `lidAfter`
(log 15). -/
structure Sense where
  rawPresence : Bool := false
  rawLid : Bool := false
  presence : Bool := false
  lid : Bool := false
  presenceDue : Option Nat := none
  lidDue : Option Nat := none
  presenceAfter : Option Nat := none
  lidAfter : Option Nat := none
  ready : Bool := false
  deriving DecidableEq, Repr

/-- The run record (section 1.2, R5). An empty label is an absent one. -/
structure Run where
  state : RunState := .none
  runId : BitVec 32 := 0
  label : List Byte := []
  policy : Policy := .cont
  priority : Level := 3
  busRate : BusRate := .k500
  verdict : Verdict := .pass
  haltReason : HaltReason := .none
  stepsDone : Nat := 0
  skipped : Nat := 0
  skipping : Bool := false
  openedAt : BitVec 32 := 0
  seq : Nat := 0
  deriving DecidableEq, Repr

/-! ## Steps -/

/-- The condition of a WAIT_FOR step with the fields it uses (section 2.5). -/
inductive Condition where
  | channelEnd (c : ChannelIx)
  | supplyOn
  | line (line : LineIx) (level : Bool)
  | frame (entry : Fin 8)
  | quiescent (threshold holdMs : Nat)
  deriving DecidableEq, Repr

/-- CONFIRM or ACK (section 2.7). -/
inductive PromptKind | confirm | ack
  deriving DecidableEq, Repr

/-- The kind of a step with its parameters (chapter 2). Times are in ms, a timeout of 0 is no limit (R25). -/
inductive StepBody where
  | set (record : List Byte)
  | start (c : ChannelIx)
  | stop (c : ChannelIx)
  | wait (ms : Nat)
  | waitFor (cond : Condition) (timeout : Nat)
  | measure (probe : ProbeIx) (samples : Nat) (lower upper : Option Int) (guard timeout : Nat)
  | prompt (kind : PromptKind) (timeout : Nat) (text : List Byte)
  | mark
  deriving DecidableEq, Repr

/-- A queued step (section 2.1). -/
structure Step where
  tag : BitVec 16
  body : StepBody
  deriving DecidableEq, Repr

/-- A QUIESCENT reading as the step keeps it: value in µA, mean16 and range (section 2.5). -/
structure Reading where
  value : Int
  mean16 : Nat
  range : Range
  deriving DecidableEq, Repr

/-! ## Probes (section 7.1) -/

/-- The settle of an ANALOG probe. -/
inductive Settle where
  | fixed (n : Nat)
  | ready
  deriving DecidableEq, Repr

/-- The quantity of a TIMING probe. -/
inductive Quantity | periodUs | highUs | dutyPermille | freqMhz
  deriving DecidableEq, Repr

/-- The fields of each probe kind. -/
inductive ProbeBody where
  | analog (point : Fin 12) (settle : Settle) (samples : Nat) (low high : Int)
  | timing (line : LineIx) (quantity : Quantity) (window : Nat)
  | frameField (entry : Fin 8) (startBit width : Nat) (signed : Bool) (num : Int) (den : Nat) (offset : Int)
  deriving DecidableEq, Repr

/-- A defined probe. -/
structure Probe where
  fixture : FixtureIx
  unit : Nat
  body : ProbeBody
  deriving DecidableEq, Repr

/-! ## The step in flight and its result -/

/-- What a step in flight keeps beside its parameters (R39, R44, R45, R47 to R49). -/
inductive Progress where
  /-- SET, WAIT and the WAIT_FOR conditions but QUIESCENT keep nothing. -/
  | plain
  /-- `nextDue` counts ms since the reset. -/
  | quiescent (last : Option Reading) (belowSince : Option (BitVec 32)) (nextDue : Option Nat)
  | analog (probe : Probe) (samples : List Nat)
  | timing (probe : Probe)
  | frameField (probe : Probe)
  /-- The identity of the step's NORMAL entry. -/
  | prompt (entry : Nat)
  deriving DecidableEq, Repr

/-- The current step context (section 1.2); its reserved log slot exists while it does. `startedAt` is the clock. -/
structure InFlight where
  step : Step
  startedAt : Nat
  progress : Progress
  deriving DecidableEq, Repr

/-- The kinds of step that leave a result. -/
inductive StepKind | set | start | stop | wait | waitFor | measure | prompt | mark
  deriving DecidableEq, Repr

/-- A result record (R21). -/
structure Result where
  seq : Nat
  tag : BitVec 16
  kind : StepKind
  verdict : Verdict
  reason : Reason
  value : Option Int
  unit : Option Nat
  mean16 : Option Nat
  range : Option Range
  elapsed : BitVec 32
  endTime : BitVec 32
  deriving DecidableEq, Repr

/-! ## Supply (section 3.1) -/

/-- A supply. `since` is the clock at the entry to the present state, from which the one timer of RAMP, LIMIT and
DISCHARGE runs. The last three fields are the comparators' levels as they last stood (pins, R53). -/
structure Supply where
  state : SupplyState := .off
  setpoint : Nat := 13500
  limit : Nat := 2000
  limitTime : Nat := 50
  slew : Nat := 1000
  tripReason : TripReason := .none
  residual : Bool := false
  range : Range := .high
  since : Nat := 0
  inRegulation : Bool := false
  atLimit : Bool := false
  below500 : Bool := true
  deriving DecidableEq, Repr

/-! ## Outputs and line capture (chapter 5) -/

/-- A dimmer configuration: base clock 10 kHz or 1 MHz, divider, polarity active low or high. -/
structure PwmCfg where
  slowBase : Bool := false
  divider : Nat := 1
  activeLow : Bool := false
  deriving DecidableEq, Repr

/-- The PWM dimmer (section 5.3). `periodStart` is the clock at the last period start. -/
structure Pwm where
  cfg : PwmCfg := {}
  duty : Nat := 0
  enabled : Bool := false
  pendingCfg : Option PwmCfg := none
  pendingDuty : Option Nat := none
  periodStart : Nat := 0
  deriving DecidableEq, Repr

/-- The counts of the pulse generator: high µs, low µs, pulse count. -/
structure PulseCounts where
  high : Nat := 1000
  low : Nat := 1000
  count : Nat := 0
  deriving DecidableEq, Repr

/-- The phase of the pulse generator. -/
inductive PulsePhase | stopped | high | low
  deriving DecidableEq, Repr

/-- The pulse generator (section 5.4). `phaseStart` is the clock at the start of the phase. -/
structure Pulse where
  cur : PulseCounts := {}
  pending : Option PulseCounts := none
  phase : PulsePhase := .stopped
  done : Nat := 0
  phaseStart : Nat := 0
  deriving DecidableEq, Repr

/-- A fixture's output set (section 5.1). `pins` are the line pins as last sampled (R108). -/
structure Outputs where
  aout0 : Nat := 0
  aout1 : Nat := 0
  pwm : Pwm := {}
  pulse : Pulse := {}
  outEnable : BitVec 8 := 0
  inEnable : BitVec 8 := 0
  outLevel : BitVec 8 := 0
  pins : BitVec 8 := 0
  deriving DecidableEq, Repr

/-- The state of a capture unit. -/
inductive CaptureState | idle | armed | counting
  deriving DecidableEq, Repr

/-- A capture unit (section 5.6); `total` is T and `high` is H. -/
structure Capture where
  state : CaptureState := .idle
  line : LineIx := 0
  window : Nat := 0
  periods : Nat := 0
  total : Nat := 0
  high : Nat := 0
  deriving DecidableEq, Repr

/-! ## Bus port (chapter 6) -/

/-- The state of a port. -/
inductive PortState | inactive | active | listen
  deriving DecidableEq, Repr

/-- A queued frame (section 6.3). -/
structure TxFrame where
  id : BitVec 29
  extended : Bool
  length : Nat
  data : List Byte
  attempts : Nat
  deriving DecidableEq, Repr

/-- Whether an attempt is on the bus: on the head frame, or on the copy the line interface finishes after a flush (R117). -/
inductive Attempt where
  | none
  | head
  | orphan (frame : TxFrame)
  deriving DecidableEq, Repr

/-- What the port last drove on the bus for a frame: nothing, an acknowledgement, an error signal (R113, R115). -/
inductive BusResponse | none | acknowledge | error
  deriving DecidableEq, Repr

/-- A bus port. -/
structure Port where
  state : PortState := .inactive
  queue : List TxFrame := []
  attempt : Attempt := .none
  response : BusResponse := .none
  deriving DecidableEq, Repr

/-- A watch entry: definition and capture (section 6.5). -/
structure Watch where
  enabled : Bool := false
  extended : Bool := false
  id : BitVec 29 := 0
  mask : BitVec 29 := 0
  count : Nat := 0
  length : Nat := 0
  data : List Byte := [0, 0, 0, 0, 0, 0, 0, 0]
  lastTime : BitVec 32 := 0
  fresh : Bool := false
  deriving DecidableEq, Repr

/-- A fixture with everything that exists once for each of the eight. `stalled` says that the present stall has posted
its LOG_FULL (R20). -/
structure Fixture where
  sense : Sense := {}
  run : Run := {}
  queue : List Step := []
  stalled : Bool := false
  log : List Result := []
  inflight : Option InFlight := none
  supply : Supply := {}
  outs : Outputs := {}
  capture : Capture := {}
  port : Port := {}
  watch : Vector Watch 8 := Vector.replicate 8 {}
  deriving DecidableEq, Repr

/-! ## Stimulus channels (section 4.1) -/

/-- The play mode of a channel. -/
inductive Mode | once | circular | pingpong
  deriving DecidableEq, Repr

/-- One of the two banks of a channel. -/
inductive Bank | a | b
  deriving DecidableEq, Repr

/-- A channel definition. The first-bank byte is stored as given (R74). -/
structure ChannelDef where
  fixture : FixtureIx
  level : Level
  mode : Mode
  repeats : Nat
  aStart : Nat
  aCount : Nat
  bStart : Nat
  bCount : Nat
  firstBank : Byte
  unitMs : Bool
  half : Bool
  endNotice : Bool
  deriving DecidableEq, Repr

/-- Channel states (section 4.2). -/
inductive ChannelState | idle | playing | starved | done | faulted
  deriving DecidableEq, Repr

/-- Why a channel is FAULTED (R86). -/
inductive FaultReason | none | txFull | rackLow
  deriving DecidableEq, Repr

/-- A channel. `due` is the phase of a PLAYING channel; `dwellEnd` the clock at which a running dwell expires. -/
structure Channel where
  defn : Option ChannelDef := none
  state : ChannelState := .idle
  due : Bool := false
  dwellEnd : Nat := 0
  bank : Option Bank := none
  position : Nat := 0
  remaining : Nat := 0
  passes : Nat := 0
  readyA : Bool := false
  readyB : Bool := false
  fault : FaultReason := .none
  deriving DecidableEq, Repr

/-! ## Converter and matrix (chapter 7) -/

/-- An input of the converter; point 9 counts twice, once for each range. -/
inductive ConvInput where
  | reference
  | point (f : FixtureIx) (p : Fin 12) (range : Range)
  deriving DecidableEq, Repr

/-- What a fixture's request asks for. -/
inductive ConvKind where
  | analog (point : Fin 12) (settle : Settle)
  | quiescent
  deriving DecidableEq, Repr

/-- A fixture's request (R128). -/
structure ConvRequest where
  level : Level
  kind : ConvKind
  remaining : Nat
  deriving DecidableEq, Repr

/-- Whose burst it is. -/
inductive Requester where
  | reference
  | fixture (f : FixtureIx)
  deriving DecidableEq, Repr

/-- Where a burst stands, with the clock at its end or, for a READY wait, at its grant. -/
inductive Stage where
  | settling (endsAt : Nat)
  | waitReady (grantedAt : Nat)
  | converting (endsAt : Nat)
  deriving DecidableEq, Repr

/-- The burst in progress. `broken` says that its supply's range returned to HIGH during it (R71). -/
structure Burst where
  requester : Requester
  input : ConvInput
  count : Nat
  stage : Stage
  orphan : Bool
  broken : Bool
  deriving DecidableEq, Repr

/-- The converter; it is FREE exactly when `burst` is absent. The defaults are those of R143 with the reference check
raised and granted at the release (R134). -/
structure Converter where
  requests : Vector (Option ConvRequest) 8 := Vector.replicate 8 none
  reference : Option Nat := some 4
  burst : Option Burst :=
    some { requester := .reference, input := .reference, count := 4, stage := .settling 200, orphan := false, broken := false }
  lastInput : Option ConvInput := none
  rangeSettle : BitVec 8 := 0
  cref : Nat := 3000
  refFault : Bool := false
  refDue : Nat := 1000000
  deriving DecidableEq, Repr

/-- What asked for a lend. -/
inductive LendSource | hold | request
  deriving DecidableEq, Repr

/-- The matrix, with the source and limit of a lend and the clock at its grant. -/
inductive Matrix where
  | owned
  | pending (source : LendSource) (limit : Nat)
  | lent (source : LendSource) (limit lentAt : Nat)
  deriving DecidableEq, Repr

/-- The lend state (section 7.5); `holdLine` is the pin. -/
structure Lend where
  matrix : Matrix := .owned
  holdLimit : Nat := 2000
  holdBlocked : Bool := false
  holdLine : Bool := false
  deriving DecidableEq, Repr

/-- The rack monitor: the input voltage pin in mV, and the level (section 3.7). -/
structure Rack where
  mv : Nat := 24000
  level : RackLevel := .normal
  deriving DecidableEq, Repr

/-! ## Consoles (chapter 9) -/

/-- What only one class of entry holds (section 9.2). -/
inductive EntryClass where
  | safety
  | normal (kind : PromptKind) (tag : BitVec 16) (runId : BitVec 32)
  deriving DecidableEq, Repr

/-- An entry of a prompt list; `id` is its identity (R158). -/
structure Entry where
  id : Nat
  owner : FixtureIx
  cls : EntryClass
  text : List Byte
  deriving DecidableEq, Repr

/-- The phase of a press (section 9.4). -/
inductive PressPhase | qualifying | held | long | cancelled
  deriving DecidableEq, Repr

/-- A press record; `bound` is the identity of its entry, `downAt` the clock. -/
structure Press where
  phase : PressPhase
  bound : Option Nat
  longTime : Nat
  downAt : Nat
  deriving DecidableEq, Repr

/-- A button: the pin, and the press record it holds while it is down. -/
structure ButtonState where
  down : Bool := false
  press : Option Press := none
  deriving DecidableEq, Repr

/-- A console. `stopAfter` is the debounce of a reversal that came when the STOP switch's own had run out (log 15). -/
structure Console where
  entries : List Entry := []
  nextId : Nat := 0
  longTime : Nat := 2
  pass : ButtonState := {}
  fail : ButtonState := {}
  stopRaw : Bool := false
  stopLevel : Bool := false
  stopDue : Option Nat := none
  stopAfter : Option Nat := none
  deriving DecidableEq, Repr

/-- The flash clock (R169): which eighth of a second it stands in, and when the next begins. -/
structure Flash where
  phase : Fin 8 := 0
  due : Nat := 125000
  deriving DecidableEq, Repr

/-! ## Link port (chapter 10) -/

/-- CHANNEL_EVENT kinds (R87). -/
inductive ChannelEvent | half | endOfBank | done | bankFree | starved | fault
  deriving DecidableEq, Repr

/-- SUPPLY_EVENT kinds (R64). -/
inductive SupplyEvent | trip | residual | cleared
  deriving DecidableEq, Repr

/-- MATRIX_EVENT kinds (R138, R139). -/
inductive MatrixEvent | lent | reclaimed | overrun
  deriving DecidableEq, Repr

/-- The notices with their fields (section 11.6). -/
inductive Notice where
  | ready (cause : ResetCause)
  | runState (f : FixtureIx) (state : RunState) (verdict : Verdict) (reason : HaltReason)
  | fixtureSense (f : FixtureIx) (presence lid : Bool)
  | supplyEvent (f : FixtureIx) (kind : SupplyEvent) (state : SupplyState) (reason : TripReason) (residual : Bool)
  | channelEvent (c : ChannelIx) (f : FixtureIx) (kind : ChannelEvent) (bank : Option Bank) (passes : Nat) (fault : FaultReason)
  | txGivenUp (f : FixtureIx) (id : BitVec 29) (extended : Bool)
  | logFull (f : FixtureIx)
  | refState (fault : Bool) (cref mean : Nat)
  | matrixEvent (kind : MatrixEvent) (source : LendSource) (ms : Nat)
  | rackLevel (new previous : RackLevel)
  | consoleStop (c : ConsoleId) (pressed : Bool)
  deriving DecidableEq, Repr

/-- A frame's type, tag and payload (R174). -/
structure Frame where
  ty : Byte
  tag : Byte
  payload : List Byte
  deriving DecidableEq, Repr

/-- A frame the part sends. -/
inductive OutFrame where
  | reply (fr : Frame)
  | notice (n : Notice)
  deriving DecidableEq, Repr

/-- The transmitter (R179). -/
inductive Transmitter where
  | free
  | sending (fr : OutFrame)
  deriving DecidableEq, Repr

/-- The receiver state (R175). -/
inductive RxState | hunt | header | body | check
  deriving DecidableEq, Repr

/-- The link port. The defaults are those of R187 with READY taken up by the transmitter. -/
structure Link where
  rx : RxState := .hunt
  rxBuf : List Byte := []
  lastByteAt : Nat := 0
  frameBuf : Option Frame := none
  reply : Option Frame := none
  tx : Transmitter := .sending (.notice (.ready .powerOn))
  notices : List Notice := []
  noticesLost : Bool := false
  silenceTimeout : Nat := 10
  silenceFrom : Option Nat := none
  resetPending : Bool := false
  deriving DecidableEq, Repr

/-! ## The part -/

/-- Everything the part holds. The strap values are a choice (log 4); `clock` counts µs since the last reset (log 1). -/
structure Part where
  powered : Bool := true
  clock : Nat := 0
  freeIndex : Nat := 0
  rate : LinkRate := .r115200
  fitted : FittedCount := .eight
  cause : ResetCause := .powerOn
  flash : Flash := {}
  fixtures : Vector Fixture 8 := Vector.replicate 8 {}
  channels : Vector Channel 32 := Vector.replicate 32 {}
  pattern : List Host.Cell := []
  pathBusy : Option Nat := none
  probes : Vector (Option Probe) 128 := Vector.replicate 128 none
  conv : Converter := {}
  lend : Lend := {}
  rack : Rack := {}
  consoleA : Console := {}
  consoleB : Console := {}
  link : Link := {}
  deriving DecidableEq, Repr

/-- The machine: the part, and the commands that wait for it, first in, first out. -/
structure State where
  pending : List Instr
  part : Part
  deriving DecidableEq, Repr

/-- The machine right after the release of a power-on reset, with no command waiting. -/
def State.reset : State := { pending := [], part := {} }

end Sys2Proof.Machine
end

