-- ==== Sys2Proof/Machine/Flags.lean ====
section
/-! DEFINITION. The evaluator (chapter 8): clip flags, values and verdicts, on exact integers. -/

namespace Sys2Proof.Machine

open Sys2Proof

/-- Rounding half up of a ÷ b (R145). -/
def halfUp (a b : Nat) : Nat := (2 * a + b) / (2 * b)

/-- Rounding half away from zero of a ÷ b (R145). -/
def halfAway (a : Int) (b : Nat) : Int := if a < 0 then -(halfUp a.natAbs b : Int) else (halfUp a.natAbs b : Int)

/-- The more severe of two verdicts (R23). -/
def Verdict.max : Verdict → Verdict → Verdict
  | .fail, _ | _, .fail => .fail
  | .incomplete, _ | _, .incomplete => .incomplete
  | .marginal, _ | _, .marginal => .marginal
  | .pass, .pass => .pass

/-! ## ANALOG values (R146 to R148) -/

/-- Some code is 4095. -/
def clipHigh (codes : List Nat) : Bool := codes.any (· == 4095)

/-- Some code is 0. -/
def clipLow (codes : List Nat) : Bool := codes.any (· == 0)

/-- The mean in sixteenths of a code (R146). -/
def mean16Of (codes : List Nat) : Nat := halfUp (16 * codes.sum) codes.length

/-- The mean corrected by the reference, limited to 65,520 (R147). -/
def correct (mean16 cref : Nat) : Nat := min 65520 (halfUp (mean16 * 3000) cref)

/-- The corrected mean on a span (R148). -/
def scale (c16 : Nat) (low high : Int) : Int := low + (halfUp (c16 * (high - low).toNat) 65536 : Int)

/-- The span of point 9 on a range (R126). -/
def currentSpan : Range → Int × Int
  | .high => (0, 5000000)
  | .low => (0, 10000)

/-- The span of a point for a MEASURE step (R126, R148). -/
def pointSpan (point : Fin 12) (low high : Int) : Int × Int :=
  if point = 8 then (0, 20000)
  else if point = 9 then currentSpan .high
  else if point = 10 then (0, 10000)
  else if point = 11 then (0, 10000)
  else (low, high)

/-- The computed value of a list of codes on a span. -/
def analogValue (codes : List Nat) (cref : Nat) (span : Int × Int) : Int :=
  scale (correct (mean16Of codes) cref) span.1 span.2

/-! ## Verdicts -/

/-- A value below the lower limit's guard band edge (R150). -/
def inLowBand (v : Int) (lower : Option Int) (guard : Nat) : Bool := lower.any fun l => v < l + guard

/-- A value above the upper limit's guard band edge (R150). -/
def inHighBand (v : Int) (upper : Option Int) (guard : Nat) : Bool := upper.any fun u => u - guard < v

/-- The limits and guard bands, first row that applies (R150). -/
def judgeLimits (v : Int) (lower upper : Option Int) (guard : Nat) : Verdict × Reason :=
  if lower.any (fun l => v < l) then (.fail, .low)
  else if upper.any (fun u => u < v) then (.fail, .high)
  else match inLowBand v lower guard, inHighBand v upper guard with
    | true, false => (.marginal, .low)
    | false, true => (.marginal, .high)
    | true, true => if v - lower.getD 0 ≤ upper.getD 0 - v then (.marginal, .low) else (.marginal, .high)
    | false, false => (.pass, .none)

/-- Verdict, reason and reported value of an ANALOG measurement, first row that applies (R149). -/
def judgeAnalog (refFault : Bool) (codes : List Nat) (value : Int) (span : Int × Int) (lower upper : Option Int)
    (guard : Nat) : Verdict × Reason × Int :=
  if refFault then (.incomplete, .ref, value)
  else if clipHigh codes && clipLow codes then (.incomplete, .saturated, value)
  else if clipHigh codes then
    if upper.any (fun u => u < span.2) then (.fail, .high, span.2) else (.incomplete, .saturated, value)
  else if clipLow codes then
    if lower.any (fun l => span.1 < l) then (.fail, .low, span.1) else (.incomplete, .saturated, value)
  else
    let (v, r) := judgeLimits value lower upper guard
    (v, r, value)

/-- A QUIESCENT reading from its codes (R152). -/
def readingOf (codes : List Nat) (cref : Nat) (range : Range) : Reading :=
  { value := if clipHigh codes then (currentSpan range).2 else analogValue codes cref (currentSpan range)
    mean16 := mean16Of codes
    range := range }

/-- A TIMING value from window, total and high time (R153). -/
def timingValue (q : Quantity) (w t h : Nat) : Int :=
  match q with
  | .periodUs => halfUp t w
  | .highUs => halfUp h w
  | .dutyPermille => halfUp (1000 * h) t
  | .freqMhz => halfUp (1000000000 * w) t

/-- Bytes as one number, byte 0 least significant (R154). -/
def dataWord (data : List Byte) : Nat := data.foldr (fun b acc => b.toNat + 256 * acc) 0

/-- The field of a frame's data, sign-extended when the probe says so (R154). -/
def fieldRaw (data : List Byte) (startBit width : Nat) (signed : Bool) : Int :=
  let raw : Nat := dataWord data / 2 ^ startBit % 2 ^ width
  if signed && 2 ^ (width - 1) ≤ raw then (raw : Int) - (2 ^ width : Nat) else raw

/-- A value brought into the signed 32-bit range (R155). -/
def clamp32 (v : Int) : Int := max (-2147483648) (min 2147483647 v)

/-- The scaled value of a field (R155). -/
def fieldValue (raw num : Int) (den : Nat) (offset : Int) : Int := clamp32 (halfAway (raw * num) den + offset)

end Sys2Proof.Machine
end

