-- ==== Sys2Proof/Machine/Bytes.lean ====
section
/-! DEFINITION. Bytes: little-endian fields, the frame check, the codes of section 11.1, and the bytes of the frames the
part sends (R174, R188, section 11.6). -/

namespace Sys2Proof.Machine

open Sys2Proof

/-! ## Fields of a payload -/

/-- The byte at an offset, 0 beyond the end. -/
def byteAt (l : List Byte) (i : Nat) : Nat := (l.getD i 0).toNat

/-- The 16-bit little-endian field at an offset. -/
def u16At (l : List Byte) (i : Nat) : Nat := byteAt l i + 256 * byteAt l (i + 1)

/-- The 32-bit little-endian field at an offset. -/
def u32At (l : List Byte) (i : Nat) : Nat := u16At l i + 65536 * u16At l (i + 2)

/-- The 16-bit two's complement field at an offset. -/
def s16At (l : List Byte) (i : Nat) : Int := (BitVec.ofNat 16 (u16At l i)).toInt

/-- The 32-bit two's complement field at an offset. -/
def s32At (l : List Byte) (i : Nat) : Int := (BitVec.ofNat 32 (u32At l i)).toInt

/-- A one-byte field. -/
def le8 (n : Nat) : List Byte := [BitVec.ofNat 8 n]

/-- A two-byte little-endian field. -/
def le16 (n : Nat) : List Byte := [BitVec.ofNat 8 n, BitVec.ofNat 8 (n / 256)]

/-- A four-byte little-endian field. -/
def le32 (n : Nat) : List Byte := le16 n ++ le16 (n / 65536)

/-- A four-byte two's complement field. -/
def leInt32 (v : Int) : List Byte := le32 (BitVec.ofInt 32 v).toNat

/-- A two-byte two's complement field. -/
def leInt16 (v : Int) : List Byte := le16 (BitVec.ofInt 16 v).toNat

/-- A flag: 0 clear, 1 set (section 11.1). -/
def flagNat (b : Bool) : Nat := if b then 1 else 0

/-- A flag as one byte. -/
def flag (b : Bool) : List Byte := le8 (flagNat b)

/-- A list cut or filled out with a byte to a length. -/
def padTo (n : Nat) (fill : Byte) (l : List Byte) : List Byte := l.take n ++ List.replicate (n - l.length) fill

/-- Characters as bytes. -/
def chars (l : List Char) : List Byte := l.map fun c => BitVec.ofNat 8 c.toNat

/-! ## The frame check (R174) -/

/-- One bit of the CRC register with x^16 + x^12 + x^5 + 1. -/
def crcShift (c : BitVec 16) : BitVec 16 := if c.msb then (c <<< 1) ^^^ 0x1021#16 else c <<< 1

/-- One byte into the register, most significant bit first. -/
def crcByte (c : BitVec 16) (b : Byte) : BitVec 16 :=
  crcShift (crcShift (crcShift (crcShift (crcShift (crcShift (crcShift (crcShift (c ^^^ (b.zeroExtend 16 <<< 8)))))))))

/-- The CRC-16 of a list of bytes, from FFFFh. -/
def crc16 (l : List Byte) : BitVec 16 := l.foldl crcByte 0xFFFF#16

/-- Length, type, tag and payload: what the check covers. -/
def Frame.covered (fr : Frame) : List Byte := le16 fr.payload.length ++ [fr.ty, fr.tag] ++ fr.payload

/-- A frame in order of transmission; the check is sent high byte first. -/
def Frame.encode (fr : Frame) : List Byte :=
  let check := (crc16 fr.covered).toNat
  [0x9E#8] ++ fr.covered ++ [BitVec.ofNat 8 (check / 256), BitVec.ofNat 8 check]

/-! ## Codes (section 11.1) -/

/-- Code of a run_state. -/
def RunState.code : RunState → Nat
  | .none => 0 | .active => 1 | .closing => 2 | .halting => 3 | .ended => 4

/-- Code of a policy. -/
def Policy.code : Policy → Nat
  | .cont => 0 | .skip => 1 | .stop => 2

/-- Code of a bus rate. -/
def BusRate.code : BusRate → Nat
  | .k125 => 0 | .k250 => 1 | .k500 => 2

/-- Code of a verdict, which is also its severity (R23). -/
def Verdict.code : Verdict → Nat
  | .pass => 0 | .marginal => 1 | .incomplete => 2 | .fail => 3

/-- Code of a halt_reason. -/
def HaltReason.code : HaltReason → Nat
  | .none => 0 | .abortRequest => 1 | .policy => 2 | .lid => 3 | .supplyTrip => 4 | .operatorReject => 5
  | .operatorStop => 6 | .linkLost => 7

/-- Code of a reason; code 5 is unused. -/
def Reason.code : Reason → Nat
  | .none => 0 | .aborted => 1 | .clamped => 2 | .txFull => 3 | .rackLow => 4 | .notBound => 6 | .busy => 7
  | .channelFault => 8 | .timeout => 9 | .lineDisabled => 10 | .watchDisabled => 11 | .supplyNotOn => 12
  | .undefinedProbe => 13 | .notReady => 14 | .noEdges => 15 | .ref => 16 | .saturated => 17 | .low => 18 | .high => 19
  | .operator => 20 | .noAnswer => 21

/-- Code of a step kind. -/
def StepKind.code : StepKind → Nat
  | .set => 1 | .start => 2 | .stop => 3 | .wait => 4 | .waitFor => 5 | .measure => 6 | .prompt => 7 | .mark => 8

/-- Code of a supply state. -/
def SupplyState.code : SupplyState → Nat
  | .off => 0 | .ramp => 1 | .on => 2 | .limit => 3 | .discharge => 4 | .tripped => 5

/-- Code of a trip_reason. -/
def TripReason.code : TripReason → Nat
  | .none => 0 | .overcurrent => 1 | .rampTimeout => 2 | .rack => 3

/-- Code of a range. -/
def Range.code : Range → Nat
  | .high => 0 | .low => 1

/-- Code of a rack level. -/
def RackLevel.code : RackLevel → Nat
  | .normal => 0 | .low => 1 | .cutoff => 2

/-- Code of a reset cause. -/
def ResetCause.code : ResetCause → Nat
  | .powerOn => 0 | .brownout => 1 | .command => 2

/-- Code of a channel mode. -/
def Mode.code : Mode → Nat
  | .once => 0 | .circular => 1 | .pingpong => 2

/-- Code of a channel state. -/
def ChannelState.code : ChannelState → Nat
  | .idle => 0 | .playing => 1 | .starved => 2 | .done => 3 | .faulted => 4

/-- Code of a bank or of none. -/
def bankCode : Option Bank → Nat
  | none => 0 | some .a => 1 | some .b => 2

/-- Code of a fault reason. -/
def FaultReason.code : FaultReason → Nat
  | .none => 0 | .txFull => 1 | .rackLow => 2

/-- Code of a channel event. -/
def ChannelEvent.code : ChannelEvent → Nat
  | .half => 0 | .endOfBank => 1 | .done => 2 | .bankFree => 3 | .starved => 4 | .fault => 5

/-- Code of a quantity. -/
def Quantity.code : Quantity → Nat
  | .periodUs => 0 | .highUs => 1 | .dutyPermille => 2 | .freqMhz => 3

/-- Code of a supply event. -/
def SupplyEvent.code : SupplyEvent → Nat
  | .trip => 0 | .residual => 1 | .cleared => 2

/-- Code of a matrix event. -/
def MatrixEvent.code : MatrixEvent → Nat
  | .lent => 0 | .reclaimed => 1 | .overrun => 2

/-- Code of a lend source. -/
def LendSource.code : LendSource → Nat
  | .hold => 0 | .request => 1

/-- Code of a matrix state. -/
def Matrix.code : Matrix → Nat
  | .owned => 0 | .pending _ _ => 1 | .lent _ _ _ => 2

/-- Code of a prompt kind. -/
def PromptKind.code : PromptKind → Nat
  | .confirm => 1 | .ack => 2

/-- Code of a press phase. -/
def PressPhase.code : PressPhase → Nat
  | .qualifying => 0 | .held => 1 | .long => 2 | .cancelled => 3

/-- Code of a port state. -/
def PortState.code : PortState → Nat
  | .inactive => 0 | .active => 1 | .listen => 2

/-- Code of a console. -/
def consoleCode : ConsoleId → Nat
  | .a => 0 | .b => 1

/-- The mechanical state of a fixture as its code: VACANT, OPEN, CLOSED, CLOSED_EMPTY (R1). -/
def mechanicalCode (presence lid : Bool) : Nat :=
  match presence, lid with
  | false, false => 0 | true, false => 1 | true, true => 2 | false, true => 3

/-! ## Notices (section 11.6) -/

/-- Type code of a notice (section 10.6). -/
def Notice.ty : Notice → Nat
  | .ready _ => 0xF0 | .runState .. => 0xF1 | .fixtureSense .. => 0xF2 | .supplyEvent .. => 0xF3
  | .channelEvent .. => 0xF4 | .txGivenUp .. => 0xF5 | .logFull _ => 0xF6 | .refState .. => 0xF7
  | .matrixEvent .. => 0xF8 | .rackLevel .. => 0xF9 | .consoleStop .. => 0xFA

/-- Payload of a notice. -/
def Notice.payload : Notice → List Byte
  | .ready cause => le8 cause.code
  | .runState f st v r => le8 f.val ++ le8 st.code ++ le8 v.code ++ le8 r.code
  | .fixtureSense f p l => le8 f.val ++ flag p ++ flag l ++ le8 (mechanicalCode p l)
  | .supplyEvent f k st r res => le8 f.val ++ le8 k.code ++ le8 st.code ++ le8 r.code ++ flag res
  | .channelEvent c f k b n r => le8 c.val ++ le8 f.val ++ le8 k.code ++ le8 (bankCode b) ++ le16 n ++ le8 r.code
  | .txGivenUp f id ext => le8 f.val ++ le32 id.toNat ++ flag ext
  | .logFull f => le8 f.val
  | .refState fault cref mean => flag fault ++ le16 cref ++ le16 mean
  | .matrixEvent k src ms => le8 k.code ++ le8 src.code ++ le32 ms
  | .rackLevel new prev => le8 new.code ++ le8 prev.code
  | .consoleStop c p => le8 (consoleCode c) ++ flag p

/-- The frame of a reply, or of a notice with tag 00h. -/
def OutFrame.frame : OutFrame → Frame
  | .reply fr => fr
  | .notice n => { ty := BitVec.ofNat 8 n.ty, tag := 0, payload := n.payload }

/-- The bytes the transmitter puts on the line. -/
def OutFrame.encode (fr : OutFrame) : List Byte := fr.frame.encode

end Sys2Proof.Machine
end

