-- ==== Sys2Proof/Machine/Operands.lean ====
section
/-! DEFINITION. What the bytes of requests, steps, stimulus records and definitions say, with the field checks the rules
give (R25, R28, R34, R43, R49, R74, R89, R118, R125, R188, R189, chapter 11). -/

namespace Sys2Proof.Machine

open Sys2Proof

/-- A code that is a number below a bound. -/
def finOf (n k : Nat) : Option (Fin n) := if h : k < n then some ⟨k, h⟩ else none

/-- A flag's byte: 0 or 1. -/
def boolOf (k : Nat) : Option Bool := if k = 0 then some false else if k = 1 then some true else none

/-- A condition that must hold for a parse to go on. -/
def need (b : Bool) : Option Unit := if b then some () else none

/-! ## Codes -/

/-- Policy of a code. -/
def policyOf (k : Nat) : Option Policy :=
  if k = 0 then some .cont else if k = 1 then some .skip else if k = 2 then some .stop else none

/-- Bus rate of a code. -/
def busRateOf (k : Nat) : Option BusRate :=
  if k = 0 then some .k125 else if k = 1 then some .k250 else if k = 2 then some .k500 else none

/-- Channel mode of a code. -/
def modeOf (k : Nat) : Option Mode :=
  if k = 0 then some .once else if k = 1 then some .circular else if k = 2 then some .pingpong else none

/-- Bank A or B of a code; none is no bank here. -/
def bankOf (k : Nat) : Option Bank := if k = 1 then some .a else if k = 2 then some .b else none

/-- Quantity of a code. -/
def quantityOf (k : Nat) : Option Quantity :=
  if k = 0 then some .periodUs else if k = 1 then some .highUs else if k = 2 then some .dutyPermille
  else if k = 3 then some .freqMhz else none

/-- Console of a code. -/
def consoleOfCode (k : Nat) : Option ConsoleId := if k = 0 then some .a else if k = 1 then some .b else none

/-! ## Stimulus records (R89, section 11.3) -/

/-- A stimulus record's target with its payload's fields. -/
inductive Target where
  | none
  | aout0 (mv : Nat)
  | aout1 (mv : Nat)
  | pwmCfg (cfg : PwmCfg) (enable : Bool)
  | pwmDuty (duty : Nat)
  | pulseCfg (counts : PulseCounts)
  | pulseRun (on : Bool)
  | lineDir (outputs inputs : BitVec 8)
  | lineDrive (mask levels : BitVec 8)
  | canTx (id : BitVec 29) (extended : Bool) (length : Nat) (data : List Byte)
  | supplyState (on : Bool)
  | supplyVolts (mv : Nat)
  | supplyLimit (limit limitTime slew : Nat)
  deriving DecidableEq, Repr

/-- The dwell of a record, in units. -/
def recordDwell (r : List Byte) : Nat := u16At r 1

/-- PWM_CFG's fields. -/
def parsePwmCfg (r : List Byte) : Option Target := do
  let slow ← boolOf (byteAt r 3)
  let divider := byteAt r 4
  need ([1, 2, 4, 8].contains divider)
  let low ← boolOf (byteAt r 5)
  let enable ← boolOf (byteAt r 6)
  return .pwmCfg { slowBase := slow, divider := divider, activeLow := low } enable

/-- CAN_TX's fields; length in the low and the extended flag in the high four bits of offset 7. -/
def parseCanTx (r : List Byte) : Option Target := do
  let id := u32At r 3
  let length := byteAt r 7 % 16
  let ext ← boolOf (byteAt r 7 / 16)
  need (length ≤ 8)
  need (if ext then id ≤ 0x1FFFFFFF else id ≤ 0x7FF)
  return .canTx (BitVec.ofNat 29 id) ext length ((r.drop 8).take length)

/-- The target of a well-formed record; none for a record that is not well-formed (R89). -/
def parseRecord (r : List Byte) : Option Target :=
  match byteAt r 0 with
  | 0 => some .none
  | 1 => some (.aout0 (u16At r 3))
  | 2 => some (.aout1 (u16At r 3))
  | 3 => parsePwmCfg r
  | 4 => some (.pwmDuty (byteAt r 3))
  | 5 => some (.pulseCfg { high := u16At r 3, low := u16At r 5, count := u16At r 7 })
  | 6 => (boolOf (byteAt r 3)).map .pulseRun
  | 7 => some (.lineDir (r.getD 3 0) (r.getD 4 0))
  | 8 => some (.lineDrive (r.getD 3 0) (r.getD 4 0))
  | 9 => parseCanTx r
  | 10 => (boolOf (byteAt r 3)).map .supplyState
  | 11 => some (.supplyVolts (u16At r 3))
  | 12 => some (.supplyLimit (u16At r 3) (u16At r 5) (u16At r 7))
  | _ => none

/-- A record is well-formed. -/
def recordOk (r : List Byte) : Bool := (parseRecord r).isSome

/-! ## Steps (section 11.2) -/

/-- The longest timeout or duration, in ms. -/
def maxMs : Nat := 600000

/-- The condition of a WAIT_FOR slot (R34). -/
def parseCondition (p : List Byte) : Option Condition :=
  match byteAt p 3 with
  | 1 => (finOf 32 (byteAt p 4)).map .channelEnd
  | 2 => some .supplyOn
  | 3 => do
    let line ← finOf 8 (byteAt p 4)
    let level ← boolOf (byteAt p 5)
    return .line line level
  | 4 => (finOf 8 (byteAt p 4)).map .frame
  | 5 => do
    let threshold := u16At p 6
    need (1 ≤ threshold && threshold ≤ 10000)
    need (u32At p 8 ≤ maxMs)
    return .quiescent threshold (u32At p 8)
  | _ => none

/-- The fields of a MEASURE slot (R43). -/
def parseMeasure (p : List Byte) : Option StepBody := do
  let probe ← finOf 128 (byteAt p 3)
  let samples := byteAt p 4
  need ([0, 1, 2, 4, 8, 16, 32, 64].contains samples)
  let lower := if byteAt p 5 % 2 = 1 then some (s32At p 8) else none
  let upper := if byteAt p 5 / 2 % 2 = 1 then some (s32At p 12) else none
  need (match lower, upper with | some l, some u => l ≤ u | _, _ => true)
  need (0 ≤ s32At p 16)
  need (u32At p 20 ≤ maxMs)
  return .measure probe samples lower upper (s32At p 16).toNat (u32At p 20)

/-- The fields of a PROMPT slot (R49). -/
def parsePrompt (p : List Byte) : Option StepBody := do
  let kind ← if byteAt p 3 = 1 then some PromptKind.confirm else if byteAt p 3 = 2 then some .ack else none
  let len := byteAt p 4
  need (len ≤ 40)
  need (u32At p 8 ≤ maxMs)
  let text := (p.drop 12).take len
  need (text.all fun c => 0x20 ≤ c.toNat && c.toNat ≤ 0x7E)
  return .prompt kind (u32At p 8) text

/-- The kind and parameters of a step slot; none when check 4 of R17 refuses it. -/
def parseStepBody (p : List Byte) : Option StepBody :=
  match byteAt p 2 with
  | 1 => do
    let r := (p.drop 4).take 16
    need (recordOk r)
    return .set r
  | 2 => (finOf 32 (byteAt p 3)).map .start
  | 3 => (finOf 32 (byteAt p 3)).map .stop
  | 4 => do
    need (u32At p 4 ≤ maxMs)
    return .wait (u32At p 4)
  | 5 => do
    let cond ← parseCondition p
    need (u32At p 12 ≤ maxMs)
    return .waitFor cond (u32At p 12)
  | 6 => parseMeasure p
  | 7 => parsePrompt p
  | 8 => some .mark
  | _ => none

/-- A step slot. -/
def parseStep (p : List Byte) : Option Step :=
  (parseStepBody p).map fun b => { tag := BitVec.ofNat 16 (u16At p 0), body := b }

/-- A payload cut into `n` pieces of `size` bytes. -/
def pieces (size : Nat) : Nat → List Byte → List (List Byte)
  | 0, _ => []
  | n + 1, p => p.take size :: pieces size n (p.drop size)

/-- The results of a parse of every piece, or the index of the first piece that fails, counted from `i`. -/
def parseAll {α : Type} (parse : List Byte → Option α) (i : Nat) : List (List Byte) → Except Nat (List α)
  | [] => .ok []
  | p :: ps =>
    match parse p with
    | none => .error i
    | some a =>
      match parseAll parse (i + 1) ps with
      | .ok as => .ok (a :: as)
      | .error k => .error k

/-! ## Definitions (section 11.5) -/

/-- A bank's start and count lie within pattern memory (R74). -/
def bankOk (start count : Nat) : Bool := 1 ≤ count && count ≤ 16384 && start + count - 1 ≤ 16383

/-- A channel definition but for its channel and fixture (R74, check 4). -/
def parseChannelDef (f : FixtureIx) (p : List Byte) : Option ChannelDef := do
  let level ← finOf 4 (byteAt p 2)
  let mode ← modeOf (byteAt p 3)
  need (bankOk (u16At p 6) (u16At p 8))
  need (mode ≠ .pingpong || bankOk (u16At p 10) (u16At p 12))
  need (mode ≠ .pingpong || (bankOf (byteAt p 14)).isSome)
  let unitMs ← boolOf (byteAt p 15)
  return { fixture := f, level := level, mode := mode, repeats := u16At p 4
           aStart := u16At p 6, aCount := u16At p 8, bStart := u16At p 10, bCount := u16At p 12
           firstBank := p.getD 14 0, unitMs := unitMs
           half := byteAt p 16 % 2 = 1, endNotice := byteAt p 16 / 2 % 2 = 1 }

/-- The fields of an ANALOG probe (R125). -/
def parseAnalog (p : List Byte) : Option ProbeBody := do
  let point ← finOf 12 (byteAt p 4)
  let settle ← if byteAt p 5 = 1 then some Settle.ready
    else if byteAt p 5 = 0 && byteAt p 6 ≤ 15 then some (.fixed (byteAt p 6)) else none
  need ([1, 2, 4, 8, 16, 32, 64].contains (byteAt p 7))
  let low := s32At p 8
  let high := s32At p 12
  need (8 ≤ point.val || (-2000000 ≤ low && low < high && high ≤ 2000000))
  return .analog point settle (byteAt p 7) low high

/-- The fields of a TIMING probe (R125). -/
def parseTiming (p : List Byte) : Option ProbeBody := do
  let line ← finOf 8 (byteAt p 4)
  let q ← quantityOf (byteAt p 5)
  need (1 ≤ byteAt p 6 && byteAt p 6 ≤ 16)
  return .timing line q (byteAt p 6)

/-- The fields of a FRAME_FIELD probe (R125). -/
def parseFrameField (p : List Byte) : Option ProbeBody := do
  let entry ← finOf 8 (byteAt p 4)
  let start := byteAt p 5
  let width := byteAt p 6
  need (start ≤ 63 && 1 ≤ width && width ≤ 32 && start + width ≤ 64)
  let signed ← boolOf (byteAt p 7)
  let den := u16At p 10
  need (1 ≤ den && den ≤ 32767)
  return .frameField entry start width signed (s16At p 8) den (s32At p 12)

/-- The fields of a probe's kind. -/
def parseProbeBody (p : List Byte) : Option ProbeBody :=
  match byteAt p 1 with
  | 1 => parseAnalog p
  | 2 => parseTiming p
  | 3 => parseFrameField p
  | _ => none

/-- A probe definition but for its number and fixture (R125, check 4). -/
def parseProbe (f : FixtureIx) (p : List Byte) : Option Probe := do
  need (byteAt p 3 ≤ 15)
  let body ← parseProbeBody p
  return { fixture := f, unit := byteAt p 3, body := body }

/-- A watch definition with its entry number, the capture clear (R118, check 3). -/
def parseWatch (p : List Byte) : Option (Fin 8 × Watch) := do
  let entry ← finOf 8 (byteAt p 1)
  let ext ← boolOf (byteAt p 10)
  let enable ← boolOf (byteAt p 11)
  need (if ext then u32At p 2 ≤ 0x1FFFFFFF else u32At p 2 ≤ 0x7FF)
  need (u32At p 6 ≤ 0x1FFFFFFF)
  return (entry, { enabled := enable, extended := ext, id := BitVec.ofNat 29 (u32At p 2), mask := BitVec.ofNat 29 (u32At p 6) })

end Sys2Proof.Machine
end

