-- ==== Sys2Proof/Machine/Pattern.lean ====
section
/-! DEFINITION. Pattern memory (section 4.3): 16,384 slots of 16 bytes, kept as the list of its bytes that are not 0,
addresses strictly rising. The byte of slot n at offset k has address 16 n + k. An unlisted byte is 0 (R88). -/

namespace Sys2Proof.Machine

open Sys2Proof

/-- The number of byte addresses. -/
def patternBytes : Nat := 16384 * 16

/-- The byte at an address. -/
def Pattern.read (m : List Host.Cell) (a : Nat) : Byte :=
  match m with
  | [] => 0
  | (b, v) :: rest => if a = b then v else if a < b then 0 else Pattern.read rest a

/-- A cell at the front of a list, left out when its byte is what an unlisted address reads as. -/
def Pattern.put (a : Nat) (v : Byte) (m : List Host.Cell) : List Host.Cell := if v = 0 then m else (a, v) :: m

/-- One byte written. -/
def Pattern.write (m : List Host.Cell) (a : Nat) (v : Byte) : List Host.Cell :=
  match m with
  | [] => Pattern.put a v []
  | (b, w) :: rest =>
    if a < b then Pattern.put a v ((b, w) :: rest)
    else if a = b then Pattern.put a v rest
    else (b, w) :: Pattern.write rest a v

/-- Consecutive bytes written from an address. -/
def Pattern.writeAll (m : List Host.Cell) (a : Nat) : List Byte → List Host.Cell
  | [] => m
  | v :: vs => Pattern.writeAll (Pattern.write m a v) (a + 1) vs

/-- The 16 bytes of a slot. -/
def Pattern.slot (m : List Host.Cell) (n : Nat) : List Byte :=
  (List.range 16).map fun k => Pattern.read m (16 * n + k)

/-- Every listed address is above `lo`, rising, within the memory, and no listed byte is 0. -/
def Pattern.wfFrom (lo : Nat) : List Host.Cell → Bool
  | [] => true
  | (a, v) :: rest => lo ≤ a && a < patternBytes && v ≠ 0 && Pattern.wfFrom (a + 1) rest

/-- The canonical form of pattern memory. -/
def Pattern.wf (m : List Host.Cell) : Bool := Pattern.wfFrom 0 m

end Sys2Proof.Machine
end

