-- ==== Sys2Proof/Machine/Ops.lean ====
section
/-! DEFINITION. The operations every block shares: reading and writing a part of the state, the passing of time, posting a
notice, and the outputs that are computed from the state. -/

namespace Sys2Proof.Machine

open Sys2Proof

/-! ## Access -/

/-- The fixture numbers in order. -/
def allFixtures : List FixtureIx := [0, 1, 2, 3, 4, 5, 6, 7]

/-- The channel numbers in order. -/
def allChannels : List ChannelIx :=
  [0, 1, 2, 3, 4, 5, 6, 7, 8, 9, 10, 11, 12, 13, 14, 15, 16, 17, 18, 19, 20, 21, 22, 23, 24, 25, 26, 27, 28, 29, 30, 31]

/-- A function on every entry of a table. -/
def mapEntries {α : Type} {n : Nat} (g : α → α) (v : Vector α n) : Vector α n :=
  ⟨⟨v.toList.map g⟩, by simp⟩

/-- A fixture. -/
def Part.fx (p : Part) (f : FixtureIx) : Fixture := p.fixtures[f.val]'f.isLt

/-- A change of one fixture. -/
def Part.modFx (p : Part) (f : FixtureIx) (g : Fixture → Fixture) : Part :=
  { p with fixtures := p.fixtures.set f.val (g (p.fx f)) f.isLt }

/-- A channel. -/
def Part.ch (p : Part) (c : ChannelIx) : Channel := p.channels[c.val]'c.isLt

/-- A change of one channel. -/
def Part.modCh (p : Part) (c : ChannelIx) (g : Channel → Channel) : Part :=
  { p with channels := p.channels.set c.val (g (p.ch c)) c.isLt }

/-- A probe table entry. -/
def Part.probe (p : Part) (n : ProbeIx) : Option Probe := p.probes[n.val]'n.isLt

/-- A console. -/
def Part.con (p : Part) : ConsoleId → Console
  | .a => p.consoleA
  | .b => p.consoleB

/-- A change of one console. -/
def Part.modCon (p : Part) (c : ConsoleId) (g : Console → Console) : Part :=
  match c with
  | .a => { p with consoleA := g p.consoleA }
  | .b => { p with consoleB := g p.consoleB }

/-- A change of the link port. -/
def Part.modLink (p : Part) (g : Link → Link) : Part := { p with link := g p.link }

/-- A change of the converter. -/
def Part.modConv (p : Part) (g : Converter → Converter) : Part := { p with conv := g p.conv }

/-- A change of the lend state. -/
def Part.modLend (p : Part) (g : Lend → Lend) : Part := { p with lend := g p.lend }

/-- A change of a fixture's supply. -/
def Part.modSupply (p : Part) (f : FixtureIx) (g : Supply → Supply) : Part :=
  p.modFx f fun x => { x with supply := g x.supply }

/-- A change of a fixture's run record. -/
def Part.modRun (p : Part) (f : FixtureIx) (g : Run → Run) : Part := p.modFx f fun x => { x with run := g x.run }

/-- A change of a fixture's outputs. -/
def Part.modOuts (p : Part) (f : FixtureIx) (g : Outputs → Outputs) : Part := p.modFx f fun x => { x with outs := g x.outs }

/-- A change of a fixture's port. -/
def Part.modPort (p : Part) (f : FixtureIx) (g : Port → Port) : Part := p.modFx f fun x => { x with port := g x.port }

/-- A fixture's request at the converter. -/
def Converter.req (v : Converter) (f : FixtureIx) : Option ConvRequest := v.requests[f.val]'f.isLt

/-- A fixture's request at the converter set or removed. -/
def Converter.setReq (v : Converter) (f : FixtureIx) (r : Option ConvRequest) : Converter :=
  { v with requests := v.requests.set f.val r f.isLt }

/-- A list of operations in order. -/
def Part.each {α : Type} (l : List α) (g : α → Part → Part) (p : Part) : Part := l.foldl (fun q a => g a q) p

/-! ## The straps (R186) -/

/-- The number of fitted fixtures. -/
def fittedCount : FittedCount → Nat
  | .two => 2 | .four => 4 | .six => 6 | .eight => 8

/-- The link rate in bit/s. -/
def rateBps : LinkRate → Nat
  | .r115200 => 115200 | .r230400 => 230400 | .r460800 => 460800 | .r921600 => 921600

/-- A fixture that the straps declare present: the lowest-numbered ones. -/
def Part.isFitted (p : Part) (f : FixtureIx) : Bool := f.val < fittedCount p.fitted

/-- The fixture a request's byte names; none gives NOT_FITTED (R2). -/
def Part.namedFixture (p : Part) (k : Nat) : Option FixtureIx :=
  match finOf 8 k with
  | some f => if p.isFitted f then some f else none
  | none => none

/-- The console that serves a fixture (R156). -/
def consoleFor (f : FixtureIx) : ConsoleId := if f.val < 4 then .a else .b

/-- The fixtures a console serves, in order. -/
def servedBy : ConsoleId → List FixtureIx
  | .a => [0, 1, 2, 3]
  | .b => [4, 5, 6, 7]

/-! ## Time -/

/-- The uptime: ms since the last reset, 32 bits (R183). -/
def Part.uptime (p : Part) : BitVec 32 := BitVec.ofNat 32 (p.clock / 1000)

/-- A count that stops at 65,535. -/
def sat16 (n : Nat) : Nat := min 65535 n

/-- The read level of a line (R108). -/
def Outputs.reads (o : Outputs) (l : LineIx) : Bool :=
  o.inEnable.getLsbD l.val && (if o.outEnable.getLsbD l.val then o.outLevel.getLsbD l.val else o.pins.getLsbD l.val)

/-- The eight read levels, bit n for line n. -/
def Outputs.readLevels (o : Outputs) : BitVec 8 := o.inEnable &&& ((o.outEnable &&& o.outLevel) ||| (~~~o.outEnable &&& o.pins))

/-- A COUNTING capture unit counts `us` microseconds at the line's read level (R110). -/
def Fixture.count (us : Nat) (x : Fixture) : Fixture :=
  match x.capture.state with
  | .counting =>
    { x with capture := { x.capture with total := x.capture.total + us
                                         high := x.capture.high + if x.outs.reads x.capture.line then us else 0 } }
  | _ => x

/-- Time passes up to a moment; nothing when the moment is past (log 1, 2). -/
def Part.advanceTo (p : Part) (t : Nat) : Part :=
  if t ≤ p.clock then p
  else { p with clock := t, fixtures := mapEntries (Fixture.count (t - p.clock)) p.fixtures }

/-! ## Notices (R179, R180) -/

/-- A notice is posted: taken up at once by a FREE transmitter with no reply to send and no older notice, else queued,
else lost. -/
def Part.post (n : Notice) (p : Part) : Part :=
  p.modLink fun l =>
    if l.tx = .free ∧ l.reply = none ∧ l.notices = [] then { l with tx := .sending (.notice n) }
    else if l.notices.length < 32 then { l with notices := l.notices ++ [n] }
    else { l with noticesLost := true }

/-- RUN_STATE with the run as it stands (R6). -/
def Part.postRunState (f : FixtureIx) (p : Part) : Part :=
  p.post (.runState f (p.fx f).run.state (p.fx f).run.verdict (p.fx f).run.haltReason)

/-- SUPPLY_EVENT with the supply as it stands (R64). -/
def Part.postSupplyEvent (f : FixtureIx) (k : SupplyEvent) (p : Part) : Part :=
  p.post (.supplyEvent f k (p.fx f).supply.state (p.fx f).supply.tripReason (p.fx f).supply.residual)

/-- CHANNEL_EVENT for a bank, with the channel's passes as they stand (R87). -/
def Part.postChannel (c : ChannelIx) (k : ChannelEvent) (b : Option Bank) (p : Part) : Part :=
  match (p.ch c).defn with
  | none => p
  | some d => p.post (.channelEvent c d.fixture k b (p.ch c).passes (if k = .fault then (p.ch c).fault else .none))

/-! ## Free values (log 7, 9, 30) -/

/-- The next free bit. -/
def Part.free (p : Part) : Bool := Config.freeBit p.freeIndex

/-- The free bit has been used. -/
def Part.used (p : Part) : Part := { p with freeIndex := p.freeIndex + 1 }

/-! ## States of runs and supplies -/

/-- The run is ACTIVE or CLOSING. -/
def Run.isOpen (r : Run) : Bool := r.state = .active || r.state = .closing

/-- RAMP, ON and LIMIT are the live states (section 3.1). -/
def Supply.live (s : Supply) : Bool := s.state = .ramp || s.state = .on || s.state = .limit

/-! ## Outputs computed from the state -/

/-- The lid lock (R3); disengaged while the part is held in reset (R186). -/
def Part.lidLock (p : Part) (f : FixtureIx) : Bool :=
  p.powered && p.isFitted f &&
    ((p.fx f).run.isOpen || (p.fx f).run.state = .halting || ((p.fx f).supply.state = .tripped && (p.fx f).supply.residual))

/-- The discharge load (R62, R63, R186). -/
def Part.dischargeLoad (p : Part) (f : FixtureIx) : Bool :=
  !p.powered || (p.fx f).supply.state = .discharge || ((p.fx f).supply.state = .tripped && (p.fx f).supply.residual)

/-- The supply's output is connected (section 3.1). -/
def Part.outputConnected (p : Part) (f : FixtureIx) : Bool := p.powered && (p.fx f).supply.live

/-- The bypass switch around the LOW shunt is closed on the HIGH range (section 3.6). -/
def Part.bypassClosed (p : Part) (f : FixtureIx) : Bool := !p.powered || (p.fx f).supply.range = .high

/-- The acknowledge line is high while the matrix is lent (R138, R139). -/
def Part.acknowledgeLine (p : Part) : Bool :=
  p.powered && match p.lend.matrix with
  | .lent _ _ _ => true
  | _ => false

/-- The soft-start limit in mA (R53). -/
def Supply.softStart (s : Supply) : Nat := max 50 (s.limit / 4 / 10 * 10)

/-- The limit in force in mA: the soft-start limit in RAMP (R53). -/
def Supply.limitInForce (s : Supply) : Nat := if s.state = .ramp then s.softStart else s.limit

/-- One tick of a dimmer configuration in µs (section 5.3). -/
def PwmCfg.tickUs (c : PwmCfg) : Nat := (if c.slowBase then 100 else 1) * c.divider

/-- The dimmer pin (R99): active for the first `duty` ticks of a period, else inactive; a duty of 64 leaves no edge at its end. -/
def Part.pwmPin (p : Part) (f : FixtureIx) : Bool :=
  let w := (p.fx f).outs.pwm
  p.powered &&
    (if w.enabled && (decide (64 ≤ w.duty) || decide (p.clock - w.periodStart < w.duty * w.cfg.tickUs)) then !w.cfg.activeLow else w.cfg.activeLow)

/-- The pulse pin is high in the high phase alone (section 5.4). -/
def Part.pulsePin (p : Part) (f : FixtureIx) : Bool := p.powered && (p.fx f).outs.pulse.phase = .high

/-- A lamp's state (R169). -/
inductive Lamp | off | steady | slowFlash | fastFlash
  deriving DecidableEq, Repr

/-- The green, amber and red lamps of a fixture, first row that applies (R170). -/
def Part.lamps (p : Part) (f : FixtureIx) : Lamp × Lamp × Lamp :=
  let x := p.fx f
  let entries := (p.con (consoleFor f)).entries
  if !p.powered || !p.isFitted f then (.off, .off, .off)
  else if x.supply.state = .tripped then (.off, .off, .fastFlash)
  else if x.run.state = .halting then (.off, .off, .slowFlash)
  else if x.run.isOpen then
    if entries.head?.any (fun e => e.owner = f) then (.off, .fastFlash, .off)
    else if entries.any (fun e => e.owner = f) then (.off, .slowFlash, .off)
    else (.off, .steady, .off)
  else if x.run.state = .ended then
    match x.run.verdict with
    | .pass => (.steady, .off, .off)
    | .marginal => (.steady, .steady, .off)
    | .fail => (.off, .off, .steady)
    | .incomplete => (.off, .steady, .steady)
  else (.off, .off, .off)

/-- Whether a lamp is lit at present (R169): both rates begin their lit halves at each whole second. -/
def Part.lit (p : Part) : Lamp → Bool
  | .off => false
  | .steady => true
  | .fastFlash => p.flash.phase.val % 2 = 0
  | .slowFlash => p.flash.phase.val < 4

/-- A console's display: header fixture and letter, and two lines of 20 characters (R161). -/
def Console.display (c : Console) : Option (FixtureIx × Byte) × List Byte × List Byte :=
  match c.entries with
  | [] => (none, padTo 20 0x20 [], padTo 20 0x20 [])
  | e :: _ =>
    let letter : Byte := match e.cls with
      | .safety => 0x53
      | .normal .confirm _ _ => 0x43
      | .normal .ack _ _ => 0x41
    (some (e.owner, letter), padTo 20 0x20 e.text, padTo 20 0x20 (e.text.drop 20))

end Sys2Proof.Machine
end

