-- ==== Sys2Proof/Machine/Consoles.lean ====
section
/-! DEFINITION. The prompt lists (section 9.2): arrival, replacement and departure of entries. -/

namespace Sys2Proof.Machine

open Sys2Proof

/-- A SAFETY entry. -/
def Entry.isSafety (e : Entry) : Bool :=
  match e.cls with
  | .safety => true
  | .normal _ _ _ => false

/-- Text of the interlock's entry for a lid change (R4). -/
def textLidOpen : List Byte := chars ['L', 'I', 'D', ' ', 'O', 'P', 'E', 'N']

/-- Text of the interlock's entry for a presence change (R4). -/
def textUnitRemoved : List Byte := chars ['U', 'N', 'I', 'T', ' ', 'R', 'E', 'M', 'O', 'V', 'E', 'D']

/-- The name a trip_reason has in the texts of R64 and R65. -/
def tripName : TripReason → List Byte
  | .none => []
  | .overcurrent => chars ['O', 'V', 'E', 'R', 'C', 'U', 'R', 'R', 'E', 'N', 'T']
  | .rampTimeout => chars ['R', 'A', 'M', 'P', ' ', 'T', 'I', 'M', 'E', 'O', 'U', 'T']
  | .rack => chars ['R', 'A', 'C', 'K', ' ', 'C', 'U', 'T', 'O', 'F', 'F']

/-- Text of a trip's entry (R64). -/
def textTrip (r : TripReason) : List Byte :=
  chars ['S', 'U', 'P', 'P', 'L', 'Y', ' ', 'T', 'R', 'I', 'P', ':', ' '] ++ tripName r

/-- Text of a residual's entry (R65). -/
def textResidual (r : TripReason) : List Byte :=
  chars ['R', 'E', 'S', 'I', 'D', 'U', 'A', 'L', ' ', 'V', 'O', 'L', 'T', 'A', 'G', 'E', ':', ' '] ++ tripName r

/-- A SAFETY entry arrives at the top and replaces its fixture's earlier one (R159). -/
def Part.giveSafety (f : FixtureIx) (text : List Byte) (p : Part) : Part :=
  p.modCon (consoleFor f) fun c =>
    { c with entries := { id := c.nextId, owner := f, cls := .safety, text := text } ::
               c.entries.filter (fun e => !(e.owner = f && e.isSafety))
             nextId := c.nextId + 1 }

/-- A fixture's SAFETY entry leaves (R67, R160). -/
def Part.removeSafety (f : FixtureIx) (p : Part) : Part :=
  p.modCon (consoleFor f) fun c => { c with entries := c.entries.filter (fun e => !(e.owner = f && e.isSafety)) }

/-- A fixture's NORMAL entry leaves (R160). -/
def Part.removeNormal (f : FixtureIx) (p : Part) : Part :=
  p.modCon (consoleFor f) fun c => { c with entries := c.entries.filter (fun e => !(e.owner = f && !e.isSafety)) }

/-- The entry a PROMPT step of a fixture gets: its identity is the console's next (R49). -/
def Part.normalEntry (f : FixtureIx) (kind : PromptKind) (tag : BitVec 16) (text : List Byte) (p : Part) : Entry :=
  { id := (p.con (consoleFor f)).nextId, owner := f, cls := .normal kind tag (p.fx f).run.runId, text := text }

/-- A NORMAL entry arrives at the bottom (R49). -/
def Part.addNormal (e : Entry) (p : Part) : Part :=
  p.modCon (consoleFor e.owner) fun c => { c with entries := c.entries ++ [e], nextId := c.nextId + 1 }

end Sys2Proof.Machine
end

