-- ==== Sys2Proof/Machine/Convert.lean ====
section
/-! DEFINITION. The converter's arbiter, its bursts and settles, the lend of the matrix, and the current ranges
(sections 3.6, 7.2 to 7.5). -/

namespace Sys2Proof.Machine

open Sys2Proof

/-! ## What the step in flight hears -/

/-- A QUIESCENT step in flight clears below_since (R41). -/
def Part.clearBelow (f : FixtureIx) (p : Part) : Part :=
  p.modFx f fun x =>
    match x.inflight with
    | some i =>
      match i.progress with
      | .quiescent last _ due => { x with inflight := some { i with progress := .quiescent last none due } }
      | _ => x
    | none => x

/-! ## Ranges -/

/-- The bit of a fixture in the range-settle flags. -/
def fixtureBit (f : FixtureIx) : BitVec 8 := 1#8 <<< f.val

/-- An input is point 9 of a fixture, on either range. -/
def ConvInput.isCurrent (i : ConvInput) (f : FixtureIx) : Bool :=
  match i with
  | .reference => false
  | .point g pt _ => g = f && pt = 9

/-- A change of current range: the last input becomes empty, the range-settle flag is set, a burst on point 9 of the
fixture is marked, and the step is told (R41, R71, R131). -/
def Part.changeRange (f : FixtureIx) (r : Range) (p : Part) : Part :=
  ((p.modSupply f fun s => { s with range := r }).modConv fun v =>
    { v with lastInput := none
             rangeSettle := v.rangeSettle ||| fixtureBit f
             burst := v.burst.map fun b => if b.input.isCurrent f then { b with broken := true } else b }).clearBelow f

/-- The range returns to HIGH if it is LOW (R69). -/
def Part.rangeHigh (f : FixtureIx) (p : Part) : Part :=
  if (p.fx f).supply.range = .low then p.changeRange f .high else p

/-! ## Granting a burst (R129 to R133) -/

/-- The input of a fixture's request: a QUIESCENT reading takes the range in force (R71, R126). -/
def Part.inputOf (p : Part) (f : FixtureIx) : ConvKind → ConvInput
  | .analog pt _ => .point f pt .high
  | .quiescent => .point f 9 (p.fx f).supply.range

/-- A settle as decided at a grant. -/
inductive SettlePlan where
  | none
  | fixed (us : Nat)
  | ready
  deriving DecidableEq, Repr

/-- The settle of a fixture's burst, first row of R132 that applies. -/
def Part.settlePlan (p : Part) (f : FixtureIx) (k : ConvKind) : SettlePlan :=
  let input := p.inputOf f k
  if input.isCurrent f && p.conv.rangeSettle.getLsbD f.val then .fixed 1000
  else if p.conv.lastInput = some input then .none
  else match k with
    | .quiescent => .fixed 200
    | .analog _ (.fixed n) => if n = 0 then .none else .fixed (100 * n)
    | .analog _ .ready => .ready

/-- The first sample of the burst in progress begins: 10 µs a sample, and the burst's input is the last input (R131). -/
def Part.startConverting (p : Part) : Part :=
  p.modConv fun v =>
    match v.burst with
    | none => v
    | some b => { v with burst := some { b with stage := .converting (p.clock + 10 * b.count) }, lastInput := some b.input }

/-- A burst begins with its settle, or with its first sample when none is due. -/
def Part.beginBurst (r : Requester) (input : ConvInput) (count : Nat) (plan : SettlePlan) (p : Part) : Part :=
  let burst := fun st => some { requester := r, input := input, count := count, stage := st, orphan := false, broken := false : Burst }
  match plan with
  | .fixed us => p.modConv fun v => { v with burst := burst (.settling (p.clock + us)) }
  | .ready => p.modConv fun v => { v with burst := burst (.waitReady p.clock) }
  | .none => (p.modConv fun v => { v with burst := burst (.converting p.clock) }).startConverting

/-- The fixture request of lowest level, then of lowest number (R129). -/
def Converter.choose (v : Converter) : Option (FixtureIx × ConvRequest) :=
  allFixtures.foldl
    (fun best f =>
      match v.req f, best with
      | none, _ => best
      | some r, none => some (f, r)
      | some r, some b => if r.level < b.2.level then some (f, r) else best)
    none

/-- A burst is granted when the converter is FREE, the matrix OWNED and a request waits; the reference check first. -/
def Part.tryBurst (p : Part) : Part :=
  if p.conv.burst.isNone && p.lend.matrix = .owned then
    match p.conv.reference with
    | some n => p.beginBurst .reference .reference (min 8 n) (.fixed 200)
    | none =>
      match p.conv.choose with
      | none => p
      | some (f, r) =>
        let input := p.inputOf f r.kind
        let plan := p.settlePlan f r.kind
        let p := if input.isCurrent f then p.modConv fun v => { v with rangeSettle := v.rangeSettle &&& ~~~fixtureBit f } else p
        p.beginBurst (.fixture f) input (min 8 r.remaining) plan
  else p

/-- A fixture's request joins the set and is served at once if nothing else is (R128, R129). -/
def Part.raiseRequest (f : FixtureIx) (kind : ConvKind) (samples : Nat) (p : Part) : Part :=
  (p.modConv fun v => v.setReq f (some { level := (p.fx f).run.priority, kind := kind, remaining := samples })).tryBurst

/-! ## Lends (R138, R139) -/

/-- A lend is granted. -/
def Part.grantLend (source : LendSource) (limit : Nat) (p : Part) : Part :=
  (p.modLend fun l => { l with matrix := .lent source limit p.clock }).post (.matrixEvent .lent source limit)

/-- What follows a burst: a pending lend, else the next burst (R130, stage 3). -/
def Part.afterBurst (p : Part) : Part :=
  match p.lend.matrix with
  | .pending source limit => p.grantLend source limit
  | _ => p.tryBurst

/-- The converter becomes FREE without a sample: the last input is empty (R130, R131, R133). -/
def Part.dropBurst (p : Part) : Part := p.modConv fun v => { v with burst := none, lastInput := none }

/-- A fixture's request is withdrawn (R128, R130). An abandoned READY wait lends the matrix or grants the next burst here, before the
fixture's next step can raise a request of its own: an order the rules leave open (log 38). -/
def Part.withdraw (f : FixtureIx) (p : Part) : Part :=
  let q := p.modConv fun v => v.setReq f none
  match q.conv.burst with
  | none => q
  | some b =>
    if b.requester = .fixture f ∧ b.orphan = false then
      match b.stage with
      | .waitReady _ => q.dropBurst.afterBurst
      | _ => q.modConv fun v => { v with burst := some { b with orphan := true } }
    else q

/-- A lend request taken in OWNED (R138). -/
def Part.lendRequest (source : LendSource) (limit : Nat) (p : Part) : Part :=
  if p.conv.burst.isNone then p.grantLend source limit
  else p.modLend fun l => { l with matrix := .pending source limit }

/-- Milliseconds of uptime from a moment to now. -/
def Part.msSince (p : Part) (t : Nat) : BitVec 32 := p.uptime - BitVec.ofNat 32 (t / 1000)

/-- A lend ends (R139). -/
def Part.endLend (kind : MatrixEvent) (source : LendSource) (lentAt : Nat) (p : Part) : Part :=
  let p := p.modLend fun l => { l with matrix := .owned }
  let p := p.post (.matrixEvent kind source (p.msSince lentAt).toNat)
  let p := p.modConv fun v => { v with lastInput := none }
  (p.each allFixtures fun f q => q.clearBelow f).tryBurst

end Sys2Proof.Machine
end

