-- ==== Sys2Proof/Machine/Runs.lean ====
section
/-! DEFINITION. The run controller and the supply bank where they meet: the end of a step, entry to HALTING and ENDED, the
failure policy, cuts and trips (sections 1.2, 1.3, 3.5). -/

namespace Sys2Proof.Machine

open Sys2Proof

/-! ## Supplies leaving their live states -/

/-- A supply enters a state, and its timer, if the state has one, starts. -/
def Part.enterSupply (f : FixtureIx) (st : SupplyState) (p : Part) : Part :=
  p.modSupply f fun s => { s with state := st, since := p.clock }

/-- A discharge ends when the below-500 mV comparator holds: in OFF, or in TRIPPED with the trip (R62). -/
def Part.endDischarge (f : FixtureIx) (p : Part) : Part :=
  if (p.fx f).supply.state = .discharge ∧ (p.fx f).supply.below500 = true then
    if (p.fx f).supply.tripReason = .none then p.enterSupply f .off
    else (p.enterSupply f .tripped).modSupply f fun s => { s with residual := false }
  else p

/-- A live supply disconnects and enters DISCHARGE with a trip_reason; the range returns to HIGH and a QUIESCENT wait is
told (R41, R55, R59, R61, R69). The disconnection clears at-limit (R61). -/
def Part.disconnect (f : FixtureIx) (r : TripReason) (p : Part) : Part :=
  ((((p.rangeHigh f).clearBelow f).modSupply f fun s =>
      { s with state := .discharge, tripReason := r, since := p.clock, atLimit := false }).endDischarge f)

/-! ## Outputs and channels of a run -/

/-- The defaults of the output set and the capture unit (R97). The line pins are the outside's. R97 makes the capture unit IDLE and
says nothing of its other fields: they keep their values, which is a choice (log 5). -/
def Part.outputDefaults (f : FixtureIx) (p : Part) : Part :=
  p.modFx f fun x =>
    { x with outs := { pins := x.outs.pins }, capture := { x.capture with state := .idle } }

/-- A PLAYING or STARVED channel goes to IDLE: request withdrawn, dwell cancelled, no bank in play (R32, R85). -/
def Channel.halted (ch : Channel) : Channel :=
  if ch.state = .playing || ch.state = .starved then { ch with state := .idle, due := false, bank := none } else ch

/-- The channel is bound to a fixture. -/
def Channel.boundTo (ch : Channel) (f : FixtureIx) : Bool := ch.defn.any fun d => d.fixture = f

/-- Every channel bound to a fixture that plays is stopped (R12, item 4). -/
def Part.stopChannels (f : FixtureIx) (p : Part) : Part :=
  { p with channels := mapEntries (fun ch => if ch.boundTo f then ch.halted else ch) p.channels }

/-- What becomes of an attempt at a flush: the line interface finishes the frame from its own copy (R117). -/
def Port.orphaned (t : Port) : Attempt :=
  match t.attempt with
  | .head => t.queue.head?.elim .none .orphan
  | a => a

/-- The transmit queue is flushed; an attempt under way runs out in the line interface (R117). -/
def Port.flush (t : Port) : Port := { t with queue := [], state := .listen, attempt := t.orphaned }

/-- A port at the end of its run releases its pins to recessive (R112). A frame that the line interface is finishing goes on to its
end (R117), which is a choice where the run ends in the event of the flush (log 36). -/
def Port.shut (t : Port) : Port := { t with state := .inactive, response := .none }

/-! ## The end of a step (R21) -/

/-- What a step ends with. -/
structure StepEnd where
  verdict : Verdict
  reason : Reason
  value : Option Int := none
  unit : Option Nat := none
  mean16 : Option Nat := none
  range : Option Range := none
  deriving DecidableEq, Repr

/-- A plain PASS. -/
def StepEnd.passed : StepEnd := { verdict := .pass, reason := .none }

/-- INCOMPLETE with a reason and no values. -/
def StepEnd.incomplete (r : Reason) : StepEnd := { verdict := .incomplete, reason := r }

/-- A QUIESCENT end that carries a reading, or none (R42). -/
def StepEnd.withReading (v : Verdict) (r : Reason) (rd : Option Reading) : StepEnd :=
  { verdict := v, reason := r, value := rd.map (·.value), mean16 := rd.map (·.mean16), range := rd.map (·.range) }

/-- The kind of a step. -/
def StepBody.kind : StepBody → StepKind
  | .set _ => .set
  | .start _ => .start
  | .stop _ => .stop
  | .wait _ => .wait
  | .waitFor _ _ => .waitFor
  | .measure .. => .measure
  | .prompt .. => .prompt
  | .mark => .mark

/-- What the step in flight has set going is undone: its converter request, capture, range or prompt entry (R27, R42, R47,
R50). -/
def Part.releaseStep (f : FixtureIx) (p : Part) : Part :=
  match (p.fx f).inflight with
  | none => p
  | some i =>
    match i.progress with
    | .plain => p
    | .frameField _ => p
    | .quiescent _ _ _ => (p.withdraw f).rangeHigh f
    | .analog _ _ => p.withdraw f
    | .timing _ => p.modFx f fun x => { x with capture := { x.capture with state := .idle } }
    | .prompt _ => p.removeNormal f

/-- The serial of the next result record (R21). -/
def nextSeq (n : Nat) : Nat := if n = 65535 then 1 else n + 1

/-- The result record of the step in flight (R21). -/
def Part.resultOf (f : FixtureIx) (i : InFlight) (e : StepEnd) (p : Part) : Result :=
  { seq := nextSeq (p.fx f).run.seq, tag := i.step.tag, kind := i.step.body.kind, verdict := e.verdict, reason := e.reason
    value := e.value, unit := e.unit, mean16 := e.mean16, range := e.range
    elapsed := p.msSince i.startedAt, endTime := p.uptime }

/-- The step in flight ends: its result fills the reserved slot, the verdict rises, steps_done counts it (R21, items 1 to 3). -/
def Part.finishStep (f : FixtureIx) (e : StepEnd) (p : Part) : Part :=
  match (p.fx f).inflight with
  | none => p
  | some i =>
    let q := p.releaseStep f
    q.modFx f fun x =>
      { x with log := x.log ++ [q.resultOf f i e], inflight := none
               run := { x.run with seq := nextSeq x.run.seq, verdict := x.run.verdict.max e.verdict
                                   stepsDone := sat16 (x.run.stepsDone + 1) } }

/-! ## HALTING and ENDED (R12, R14) -/

/-- A HALTING run whose supply is OFF or TRIPPED enters ENDED (R14). -/
def Part.endRun (f : FixtureIx) (p : Part) : Part :=
  if (p.fx f).run.state = .halting ∧ ((p.fx f).supply.state = .off ∨ (p.fx f).supply.state = .tripped) then
    (p.modFx f fun x => { x with run := { x.run with state := .ended }, port := x.port.shut }).postRunState f
  else p

/-- A live supply is cut without a trip, and a HALTING run examines it (R4, R12, R14, R62, R167). -/
def Part.cutSupply (f : FixtureIx) (p : Part) : Part :=
  if (p.fx f).supply.live then (p.disconnect f .none).endRun f else p

/-- Every queued step is discarded and counted (R12, item 2). -/
def Fixture.dropQueue (x : Fixture) : Fixture :=
  { x with queue := [], stalled := false
           run := { x.run with skipped := sat16 (x.run.skipped + x.queue.length), skipping := false } }

/-- Entry to HALTING (R12). -/
def Part.enterHalting (f : FixtureIx) (r : HaltReason) (p : Part) : Part :=
  let p := p.finishStep f (.incomplete .aborted)
  let p := p.modFx f Fixture.dropQueue
  let p := p.removeNormal f
  let p := p.stopChannels f
  let p := p.withdraw f
  let p := p.outputDefaults f
  let p := p.modPort f Port.flush
  let p := p.cutSupply f
  let p := p.modRun f fun u =>
    { u with state := .halting, haltReason := r, verdict := if r = .none then u.verdict else u.verdict.max .incomplete }
  (p.postRunState f).endRun f

/-- A halt request from any block (R11). -/
def Part.haltRequest (f : FixtureIx) (r : HaltReason) (p : Part) : Part :=
  if (p.fx f).run.isOpen then p.enterHalting f r else p

/-! ## Trips (R64, R65) -/

/-- A live supply trips: DISCHARGE, SUPPLY_EVENT, SAFETY entry, halt request (R59, R61, R64, R73). -/
def Part.tripSupply (f : FixtureIx) (r : TripReason) (p : Part) : Part :=
  ((((p.disconnect f r).postSupplyEvent f .trip).giveSafety f (textTrip r)).haltRequest f .supplyTrip).endRun f

/-- The discharge timer expires: TRIPPED with residual; a trip is detected when trip_reason was NONE (R63 to R65). -/
def Part.dischargeFailed (f : FixtureIx) (p : Part) : Part :=
  let fresh : Bool := (p.fx f).supply.tripReason = .none
  let p := (p.enterSupply f .tripped).modSupply f fun s =>
    { s with residual := true, tripReason := if s.tripReason = .none then .rack else s.tripReason }
  let r := (p.fx f).supply.tripReason
  let p := if fresh then (p.postSupplyEvent f .trip).giveSafety f (textTrip r) else p
  let p := (p.postSupplyEvent f .residual).giveSafety f (textResidual r)
  let p := if fresh then p.haltRequest f .supplyTrip else p
  p.endRun f

/-! ## The failure policy (R24) -/

/-- A step is a MARK. -/
def Step.isMark (s : Step) : Bool :=
  match s.body with
  | .mark => true
  | _ => false

/-- SKIP: the queue up to and including its first MARK is discarded; with no MARK all of it, and skipping is set. -/
def Fixture.skip (x : Fixture) : Fixture :=
  if x.queue.any Step.isMark then
    let rest := (x.queue.dropWhile fun s => !s.isMark).tail
    { x with queue := rest, run := { x.run with skipped := sat16 (x.run.skipped + (x.queue.length - rest.length)) } }
  else { x with queue := [], run := { x.run with skipped := sat16 (x.run.skipped + x.queue.length), skipping := true } }

/-- The failure policy acts on a FAIL or INCOMPLETE result of an ACTIVE or CLOSING run. -/
def Part.applyPolicy (f : FixtureIx) (v : Verdict) (p : Part) : Part :=
  if (v = .fail ∨ v = .incomplete) ∧ (p.fx f).run.isOpen = true then
    match (p.fx f).run.policy with
    | .cont => p
    | .skip => p.modFx f Fixture.skip
    | .stop => p.enterHalting f .policy
  else p

/-- The step in flight ends and the policy acts, before the head is examined (R21, items 1 to 4). -/
def Part.closeStep (f : FixtureIx) (e : StepEnd) (p : Part) : Part :=
  match (p.fx f).inflight with
  | none => p
  | some _ => (p.finishStep f e).applyPolicy f e.verdict

end Sys2Proof.Machine
end

