-- ==== Sys2Proof/Machine/Channels.lean ====
section
/-! DEFINITION. Stimulus channels: starting, dwelling, the end of a bank, and the bank in play (sections 4.1 to 4.3). -/

namespace Sys2Proof.Machine

open Sys2Proof

/-- The other bank. -/
def Bank.other : Bank → Bank
  | .a => .b
  | .b => .a

/-- The bank a start begins with (R78). -/
def ChannelDef.first (d : ChannelDef) : Bank :=
  if d.mode = .pingpong then (bankOf d.firstBank.toNat).getD .a else .a

/-- First slot of a bank. -/
def ChannelDef.start (d : ChannelDef) : Bank → Nat
  | .a => d.aStart
  | .b => d.bStart

/-- Number of slots of a bank. -/
def ChannelDef.count (d : ChannelDef) : Bank → Nat
  | .a => d.aCount
  | .b => d.bCount

/-- A bank's ready flag. -/
def Channel.ready (ch : Channel) : Bank → Bool
  | .a => ch.readyA
  | .b => ch.readyB

/-- A bank's ready flag set or cleared. -/
def Channel.setReady (ch : Channel) (bk : Bank) (v : Bool) : Channel :=
  match bk with
  | .a => { ch with readyA := v }
  | .b => { ch with readyB := v }

/-- A bank becomes the current bank and the channel is PLAYING and due for its first record (R78, R82 to R84). -/
def Channel.enter (ch : Channel) (d : ChannelDef) (bk : Bank) : Channel :=
  { ch with state := .playing, due := true, bank := some bk, position := d.start bk, remaining := d.count bk }

/-- A START step starts the channel (R31, R78). A channel that starves at its start keeps the `remaining` of its last play, of which
neither rule speaks: a choice (log 37). -/
def Part.startChannel (c : ChannelIx) (p : Part) : Part :=
  match (p.ch c).defn with
  | none => p
  | some d =>
    let bk := d.first
    if d.mode = .pingpong ∧ (p.ch c).ready bk = false then
      (p.modCh c fun ch => { ch with passes := 0, position := d.start bk, state := .starved, due := false, bank := none }).postChannel c
        .starved (some bk)
    else
      p.modCh c fun ch => ({ ch with passes := 0 }.enter d bk).setReady bk (if d.mode = Mode.pingpong then false else ch.ready bk)

/-- The bank a STARVED channel waits for (R78, R83). -/
def Channel.awaited (ch : Channel) (d : ChannelDef) : Bank :=
  match ch.bank with
  | none => d.first
  | some bk => bk.other

/-- The channel has run to its end: no bank in play, DONE posted (R81, R82). -/
def Part.channelDone (c : ChannelIx) (bk : Bank) (p : Part) : Part :=
  (p.modCh c fun ch => { ch with state := .done, due := false, bank := none }).postChannel c .done (some bk)

/-- The end of a bank (R81, R82, R83). -/
def Part.bankEnd (c : ChannelIx) (p : Part) : Part :=
  match (p.ch c).defn, (p.ch c).bank with
  | some d, some bk =>
    let p := p.modCh c fun ch => { ch with passes := if d.mode = .once then 1 else sat16 (ch.passes + 1) }
    let p := if d.endNotice then p.postChannel c .endOfBank (some bk) else p
    match d.mode with
    | .once => p.channelDone c bk
    | .circular =>
      if d.repeats ≠ 0 ∧ d.repeats ≤ (p.ch c).passes then p.channelDone c bk
      else p.modCh c fun ch => ch.enter d bk
    | .pingpong =>
      if (p.ch c).ready bk.other then
        (p.modCh c fun ch => (ch.enter d bk.other).setReady bk.other false).postChannel c .bankFree (some bk)
      else (p.modCh c fun ch => { ch with state := .starved, due := false }).postChannel c .starved (some bk.other)
  | _, _ => p

/-- A dwell has expired: due for the next record, or the bank has ended (R79). -/
def Part.dwellDone (c : ChannelIx) (p : Part) : Part :=
  if 0 < (p.ch c).remaining then p.modCh c fun ch => { ch with due := true } else p.bankEnd c

/-- The dwell of a record in µs (R79). -/
def ChannelDef.dwellUs (d : ChannelDef) (units : Nat) : Nat := units * (if d.unitMs then 1000 else 100)

/-- A channel's record has been applied: position, dwell, HALF, and at once the expiry of a dwell of 0 (R79, R80). -/
def Part.channelApplied (c : ChannelIx) (d : ChannelDef) (units : Nat) (p : Part) : Part :=
  let bank := (p.ch c).bank
  let half := (d.count (bank.getD .a)) / 2
  let p := p.modCh c fun ch =>
    { ch with position := ch.position + 1, remaining := ch.remaining - 1, due := false, dwellEnd := p.clock + d.dwellUs units }
  let p := if d.half ∧ 1 ≤ half ∧ (p.ch c).remaining = half then p.postChannel c .half bank else p
  if units = 0 then p.dwellDone c else p

/-- A channel's record could not be applied (R86). -/
def Part.channelFaulted (c : ChannelIx) (r : FaultReason) (p : Part) : Part :=
  let bank := (p.ch c).bank
  (p.modCh c fun ch => { ch with state := .faulted, fault := r, due := false, bank := none }).postChannel c .fault bank

/-- The slots of the bank in play: first slot and count (section 4.2). -/
def Channel.inPlay (ch : Channel) : Option (Nat × Nat) :=
  match ch.defn, ch.bank with
  | some d, some bk => if ch.state = .playing || ch.state = .starved then some (d.start bk, d.count bk) else none
  | _, _ => none

/-- A range of slots meets the bank in play. -/
def Channel.protectsAny (ch : Channel) (first count : Nat) : Bool :=
  match ch.inPlay with
  | none => false
  | some (s, n) => first < s + n && s < first + count

/-- The lowest channel whose bank in play meets a range of slots (R90). -/
def Part.protector (p : Part) (first count : Nat) : Option ChannelIx :=
  allChannels.find? fun c => (p.ch c).protectsAny first count

/-- A new definition: IDLE at the start of the first bank, everything else cleared (R74). -/
def Channel.defined (d : ChannelDef) : Channel := { defn := some d, position := d.start d.first }

end Sys2Proof.Machine
end

