-- ==== Sys2Proof/Machine/Records.lean ====
section
/-! DEFINITION. Applying a stimulus record to its target (chapters 3, 5 and 6), and what follows from it within the event.
A record's own outcome reaches its requester before what follows (log 10). -/

namespace Sys2Proof.Machine

open Sys2Proof

/-- The outcome of a record at its target (R29, R95). -/
inductive Applied | asGiven | clamped | txFull | rackLow
  deriving DecidableEq, Repr

/-- What is still to be examined after a record has reached its target. -/
inductive Follow where
  | nothing
  /-- The read levels may have changed and inputs may have been disabled (R106 to R108). -/
  | lines (before : Outputs)
  /-- The in-regulation comparator may hold in RAMP (R56, R58). -/
  | ramp
  /-- A live supply was cut by the record (R41, R55). -/
  | cut
  /-- The limit moved from an old value (R57). -/
  | limits (old : Nat)
  deriving DecidableEq, Repr

/-- Applied as given, or clamped when a value changed. -/
def clampedIf (b : Bool) : Applied := if b then .clamped else .asGiven

/-! ## Outputs (sections 5.2 to 5.5) -/

/-- PWM_DUTY (R100). -/
def Pwm.withDuty (w : Pwm) (d : Nat) : Pwm :=
  if w.enabled then { w with pendingDuty := some (min 64 d) } else { w with duty := min 64 d, pendingDuty := none }

/-- PWM_CFG (R101, R102). -/
def Pwm.withCfg (w : Pwm) (cfg : PwmCfg) (enable : Bool) (now : Nat) : Pwm :=
  if enable then
    if w.enabled then { w with pendingCfg := some cfg }
    else { cfg := cfg, duty := w.pendingDuty.getD w.duty, enabled := true, pendingCfg := none, pendingDuty := none, periodStart := now }
  else { w with cfg := cfg, enabled := false, duty := w.pendingDuty.getD w.duty, pendingCfg := none, pendingDuty := none }

/-- The clock at the next period start (R99). -/
def Pwm.nextStart (w : Pwm) : Nat := w.periodStart + 64 * w.cfg.tickUs

/-- A period start takes up what is pending (R99). -/
def Pwm.takeUp (w : Pwm) : Pwm :=
  { w with cfg := w.pendingCfg.getD w.cfg, duty := w.pendingDuty.getD w.duty, pendingCfg := none, pendingDuty := none
           periodStart := w.nextStart }

/-- PULSE_CFG's counts with 0 µs raised to 1 µs (R104). -/
def PulseCounts.raised (c : PulseCounts) : PulseCounts := { c with high := max 1 c.high, low := max 1 c.low }

/-- PULSE_CFG (R104). -/
def Pulse.withCounts (g : Pulse) (c : PulseCounts) : Pulse :=
  if g.phase = .stopped then { g with cur := c.raised, pending := none } else { g with pending := some c.raised }

/-- PULSE_RUN (R105). -/
def Pulse.run (g : Pulse) (on : Bool) (now : Nat) : Pulse :=
  if on then
    if g.phase = .stopped then { g with done := 0, phase := .high, phaseStart := now } else g
  else if g.phase = .stopped then g
  else { g with phase := .stopped, cur := g.pending.getD g.cur, pending := none }

/-- The clock at the end of the phase (R103). -/
def Pulse.boundary (g : Pulse) : Nat := g.phaseStart + (if g.phase = .high then g.cur.high else g.cur.low)

/-- A phase boundary (R103). -/
def Pulse.step (g : Pulse) : Pulse :=
  let cur := g.pending.getD g.cur
  match g.phase with
  | .stopped => g
  | .high =>
    let done := sat16 (g.done + 1)
    if cur.count ≠ 0 ∧ cur.count ≤ done then
      { g with cur := cur, pending := none, done := done, phase := .stopped, phaseStart := g.boundary }
    else { g with cur := cur, pending := none, done := done, phase := .low, phaseStart := g.boundary }
  | .low => { g with cur := cur, pending := none, phase := .high, phaseStart := g.boundary }

/-- LINE_DRIVE on the output levels (R107). -/
def Outputs.drive (o : Outputs) (mask levels : BitVec 8) : Outputs :=
  { o with outLevel := (o.outLevel &&& ~~~mask) ||| (levels &&& mask) }

/-! ## Supply records (section 3.2) -/

/-- SUPPLY_VOLTS' clamp (R56). -/
def clampVolts (mv : Nat) : Nat := if mv = 0 then 0 else min 18000 (max 3000 mv) / 10 * 10

/-- SUPPLY_LIMIT's clamp of the limit (R57). -/
def clampLimit (ma : Nat) : Nat := min 5000 (max 50 ma) / 10 * 10

/-- SUPPLY_LIMIT's clamp of limit_time (R57). -/
def clampLimitTime (ms : Nat) : Nat := min 1000 (max 1 ms)

/-- SUPPLY_LIMIT's clamp of the slew (R57). -/
def clampSlew (s : Nat) : Nat := min 10000 (max 100 s) / 100 * 100

/-- The in-regulation comparator after its setpoint moved: it always holds at 0 (R53); with the output disconnected and
discharged, or below 500 mV (log 8), it does not hold; otherwise, where the move may have changed it, its level is free (log 7). -/
def Part.moveSetpoint (f : FixtureIx) (mv : Nat) (p : Part) : Part :=
  let s := (p.fx f).supply
  let put := fun (b : Bool) (q : Part) => q.modSupply f fun s => { s with setpoint := mv, inRegulation := b }
  if mv = 0 then put true p
  else if mv = s.setpoint then p
  else if s.state = .off ∨ s.state = .tripped ∨ s.below500 = true then put false p
  else if (mv < s.setpoint) = s.inRegulation then put s.inRegulation p
  else put p.free p.used

/-- SUPPLY_STATE ON (R54). -/
def Part.supplyOn (f : FixtureIx) (p : Part) : Part × Applied × Follow :=
  let s := (p.fx f).supply
  if s.state = .off then
    if p.rack.level = .normal then
      ((p.enterSupply f .ramp).modSupply f fun s => { s with inRegulation := s.setpoint = 0 }, .asGiven, .ramp)
    else (p, .rackLow, .nothing)
  else if s.state = .discharge ∧ s.tripReason = .none then
    if p.rack.level = .normal then
      ((p.enterSupply f .ramp).modSupply f fun s => { s with inRegulation := s.inRegulation || s.setpoint = 0 }, .asGiven, .ramp)
    else (p, .rackLow, .nothing)
  else (p, .asGiven, .nothing)

/-- SUPPLY_STATE OFF (R55). -/
def Part.supplyOff (f : FixtureIx) (p : Part) : Part × Applied × Follow :=
  if (p.fx f).supply.live then (p.disconnect f .none, .asGiven, .cut) else (p, .asGiven, .nothing)

/-- SUPPLY_LIMIT (R57). -/
def Part.supplyLimit (f : FixtureIx) (ma ms slew : Nat) (p : Part) : Part × Applied × Follow :=
  let old := (p.fx f).supply.limit
  (p.modSupply f fun s => { s with limit := clampLimit ma, limitTime := clampLimitTime ms, slew := clampSlew slew },
   clampedIf (clampLimit ma != ma || clampLimitTime ms != ms || clampSlew slew != slew), .limits old)

/-! ## CAN_TX (R114) -/

/-- A frame joins the transmit queue, or finds it full. -/
def Part.canTx (f : FixtureIx) (id : BitVec 29) (ext : Bool) (len : Nat) (data : List Byte) (p : Part) : Part × Applied × Follow :=
  if (p.fx f).port.queue.length < 16 then
    (p.modPort f fun t =>
      { t with queue := t.queue ++ [{ id := id, extended := ext, length := len, data := data, attempts := 0 }] },
     .asGiven, .nothing)
  else (p, .txFull, .nothing)

/-! ## All targets (R95, R96) -/

/-- A record reaches its target at a fixture. -/
def Part.applyTarget (f : FixtureIx) (t : Target) (p : Part) : Part × Applied × Follow :=
  match t with
  | .none => (p, .asGiven, .nothing)
  | .aout0 mv => (p.modOuts f fun o => { o with aout0 := min 10000 mv }, clampedIf (10000 < mv), .nothing)
  | .aout1 mv => (p.modOuts f fun o => { o with aout1 := min 10000 mv }, clampedIf (10000 < mv), .nothing)
  | .pwmCfg cfg en => (p.modOuts f fun o => { o with pwm := o.pwm.withCfg cfg en p.clock }, .asGiven, .nothing)
  | .pwmDuty d => (p.modOuts f fun o => { o with pwm := o.pwm.withDuty d }, clampedIf (64 < d), .nothing)
  | .pulseCfg c => (p.modOuts f fun o => { o with pulse := o.pulse.withCounts c }, clampedIf (c.high = 0 || c.low = 0), .nothing)
  | .pulseRun on => (p.modOuts f fun o => { o with pulse := o.pulse.run on p.clock }, .asGiven, .nothing)
  | .lineDir outs ins =>
    (p.modOuts f fun o => { o with outEnable := outs, inEnable := ins }, .asGiven, .lines (p.fx f).outs)
  | .lineDrive mask levels => (p.modOuts f fun o => o.drive mask levels, .asGiven, .lines (p.fx f).outs)
  | .canTx id ext len data => p.canTx f id ext len data
  | .supplyState true => p.supplyOn f
  | .supplyState false => p.supplyOff f
  | .supplyVolts mv => (p.moveSetpoint f (clampVolts mv), clampedIf (clampVolts mv != mv), .ramp)
  | .supplyLimit ma ms slew => p.supplyLimit f ma ms slew

/-- The record of 16 bytes applied; a record that is not well-formed acts as NONE (none is stored or queued, R89). -/
def Part.applyRecord (f : FixtureIx) (r : List Byte) (p : Part) : Part × Applied × Follow :=
  p.applyTarget f ((parseRecord r).getD .none)

/-- What a SET step ends with (R29). -/
def Applied.setEnd : Applied → StepEnd
  | .asGiven => .passed
  | .clamped => { verdict := .pass, reason := .clamped }
  | .txFull => .incomplete .txFull
  | .rackLow => .incomplete .rackLow

/-- The fault a failed record gives a channel (R86). -/
def Applied.fault : Applied → Option FaultReason
  | .asGiven => none
  | .clamped => none
  | .txFull => some .txFull
  | .rackLow => some .rackLow

end Sys2Proof.Machine
end

