-- ==== Sys2Proof/Machine/Runner.lean ====
section
/-! DEFINITION. The step queue at work (section 1.3, chapter 2) and the record arbiter (section 4.4): a step starts, waits, is
granted, ends, and the next head is examined, all within one event. -/

namespace Sys2Proof.Machine

open Sys2Proof

/-- What examines the head of a fixture's queue after a step has ended (R19, R21). -/
abbrev Examine := FixtureIx → Part → Part

/-- The step in flight, if there is one, ends, and the head is examined (R21). -/
def Part.endStep (rq : Examine) (f : FixtureIx) (e : StepEnd) (p : Part) : Part :=
  if (p.fx f).inflight.isSome then rq f (p.closeStep f e) else p

/-- The condition of a WAIT_FOR step in flight. -/
def Fixture.waitingFor (x : Fixture) : Option Condition :=
  match x.inflight with
  | some i =>
    match i.step.body with
    | .waitFor cond _ => some cond
    | _ => none
  | none => none

/-- The limits and guard of a MEASURE step. -/
def StepBody.limits : StepBody → Option Int × Option Int × Nat
  | .measure _ _ lower upper guard _ => (lower, upper, guard)
  | _ => (none, none, 0)

/-- How a TIMING or FRAME_FIELD measurement ends with a value (R150, R153, R155). -/
def InFlight.measured (i : InFlight) (unit : Nat) (v : Int) : StepEnd :=
  let (lower, upper, guard) := i.step.body.limits
  let (verdict, reason) := judgeLimits v lower upper guard
  { verdict := verdict, reason := reason, value := some v, unit := some unit }

/-! ## Discrete lines (R37, R47, R108 to R110) -/

/-- A line of a fixture has lost its input. -/
def lostInput (before after : Outputs) (l : LineIx) : Bool := before.inEnable.getLsbD l.val && !after.inEnable.getLsbD l.val

/-- The capture unit hears a rising edge of its line (R109, R110). A total past 16,000,000 µs has overflowed before (R111). -/
def Part.risingEdge (rq : Examine) (f : FixtureIx) (p : Part) : Part :=
  let u := (p.fx f).capture
  match u.state with
  | .idle => p
  | .armed => p.modFx f fun x => { x with capture := { u with state := .counting, periods := 0, total := 0, high := 0 } }
  | .counting =>
    let p := p.modFx f fun x => { x with capture := { u with periods := u.periods + 1 } }
    if 16000000 < u.total then p.endStep rq f (.incomplete .noEdges)
    else if u.periods + 1 = u.window then
      match (p.fx f).inflight with
      | some i =>
        match i.progress with
        | .timing pr =>
          match pr.body with
          | .timing _ q _ => p.endStep rq f (i.measured pr.unit (timingValue q u.window u.total u.high))
          | _ => p
        | _ => p
      | none => p
    else p

/-- The run controller and the capture unit hear what changed at a fixture's lines (R106, R108). -/
def Part.lineReaction (rq : Examine) (f : FixtureIx) (before : Outputs) (p : Part) : Part :=
  let x := p.fx f
  match x.waitingFor with
  | some (.line l level) =>
    if lostInput before x.outs l then p.endStep rq f (.incomplete .lineDisabled)
    else if before.reads l ≠ x.outs.reads l ∧ x.outs.reads l = level then p.endStep rq f .passed
    else p
  | _ =>
    if x.capture.state = .idle then p
    else if lostInput before x.outs x.capture.line then p.endStep rq f (.incomplete .lineDisabled)
    else if !before.reads x.capture.line && x.outs.reads x.capture.line then p.risingEdge rq f
    else p

/-! ## Supplies (R36, R41, R53, R57 to R61) -/

/-- LIMIT is entered: the range returns to HIGH, and a QUIESCENT wait is told (R41, R60, R69). -/
def Part.enterLimit (f : FixtureIx) (p : Part) : Part := ((p.rangeHigh f).clearBelow f).enterSupply f .limit

/-- The at-limit comparator as the limit in force rises from the soft-start limit at the entry to ON: a current held at the
soft-start limit stands below the limit, and the level clears (R53, R58; log 29). -/
def Part.limitAtOn (f : FixtureIx) (p : Part) : Part :=
  p.modSupply f fun s => { s with atLimit := s.atLimit && decide (s.softStart = s.limit) }

/-- ON is entered from RAMP: the at-limit comparator is examined, and a WAIT_FOR SUPPLY_ON is met (R36, R53, R58). -/
def Part.enterOn (rq : Examine) (f : FixtureIx) (p : Part) : Part :=
  let p := (p.enterSupply f .on).limitAtOn f
  let p := if (p.fx f).supply.atLimit then p.enterLimit f else p
  if (p.fx f).waitingFor = some .supplyOn then p.endStep rq f .passed else p

/-- ON is entered from LIMIT (R36, R61). -/
def Part.backToOn (rq : Examine) (f : FixtureIx) (p : Part) : Part :=
  let p := (p.enterSupply f .on).modSupply f fun s => { s with atLimit := false }
  if (p.fx f).waitingFor = some .supplyOn then p.endStep rq f .passed else p

/-- The limit timer's deadline has come (R57, R61). -/
def Part.limitSpent (p : Part) (f : FixtureIx) : Bool :=
  let s := (p.fx f).supply
  s.since + s.limitTime * 1000 ≤ p.clock

/-- What the at-limit comparator and the limit timer make of a SUPPLY_LIMIT record (R57, R61; log 7, 9). A current held at a limit
stands below a raised one; on the LOW range it stands below every limit (section 3.6). -/
def Part.afterLimits (rq : Examine) (f : FixtureIx) (old : Nat) (p : Part) : Part :=
  let s := (p.fx f).supply
  match s.state with
  | .ramp =>
    let was := ({ s with limit := old } : Supply).softStart
    if s.atLimit = true ∧ was < s.softStart then p.modSupply f fun s => { s with atLimit := false }
    else if s.atLimit = false ∧ s.softStart < was then p.used.modSupply f fun s => { s with atLimit := p.free }
    else p
  | .on =>
    if s.limit < old ∧ s.range = .high then
      if p.free then (p.used.modSupply f fun s => { s with atLimit := true }).enterLimit f else p.used
    else p
  | .limit =>
    let spent := p.limitSpent f
    let clears : Bool := old < s.limit
    if clears && spent then
      if p.free then p.used.backToOn rq f else p.used.tripSupply f .overcurrent
    else if clears then p.backToOn rq f
    else if spent then p.tripSupply f .overcurrent
    else p
  | _ => p

/-- A live supply was cut by a record: a QUIESCENT wait ends with its last reading (R41, R42). -/
def Part.afterCut (rq : Examine) (f : FixtureIx) (p : Part) : Part :=
  match (p.fx f).inflight with
  | some i =>
    match i.progress with
    | .quiescent last _ _ => p.endStep rq f (.withReading .incomplete .supplyNotOn last)
    | _ => p
  | none => p

/-- What follows from a record within its event. -/
def Part.follow (rq : Examine) (f : FixtureIx) (w : Follow) (p : Part) : Part :=
  match w with
  | .nothing => p
  | .lines before => p.lineReaction rq f before
  | .ramp => if (p.fx f).supply.state = .ramp ∧ (p.fx f).supply.inRegulation = true then p.enterOn rq f else p
  | .cut => p.afterCut rq f
  | .limits old => p.afterLimits rq f old

/-! ## The start of a step (R31 to R49) -/

/-- The step in flight keeps what its kind needs. -/
def Part.setProgress (f : FixtureIx) (g : Progress) (p : Part) : Part :=
  p.modFx f fun x => { x with inflight := x.inflight.map fun i => { i with progress := g } }

/-- A watch entry of a fixture. -/
def Fixture.watchOf (x : Fixture) (e : Fin 8) : Watch := x.watch[e.val]'e.isLt

/-- A change of a watch entry. -/
def Part.modWatch (f : FixtureIx) (e : Fin 8) (g : Watch → Watch) (p : Part) : Part :=
  p.modFx f fun x => { x with watch := x.watch.set e.val (g (x.watchOf e)) e.isLt }

/-- A START step's outcome, first line of R31 that applies. -/
def Part.startOutcome (f : FixtureIx) (c : ChannelIx) (p : Part) : StepEnd :=
  if !(p.ch c).boundTo f then .incomplete .notBound
  else match (p.ch c).state with
    | .faulted => .incomplete .channelFault
    | .playing => .incomplete .busy
    | .starved => .incomplete .busy
    | .idle => .passed
    | .done => .passed

/-- A START step (R31, R78); its result stands before its channel's first grant (log 11). -/
def Part.beginStart (f : FixtureIx) (c : ChannelIx) (p : Part) : Part :=
  let e := p.startOutcome f c
  (if e.verdict = .pass then p.startChannel c else p).closeStep f e

/-- A STOP step (R32). -/
def Part.beginStop (f : FixtureIx) (c : ChannelIx) (p : Part) : Part :=
  if (p.ch c).boundTo f then (p.modCh c Channel.halted).closeStep f .passed else p.closeStep f (.incomplete .notBound)

/-- A WAIT_FOR step (R35 to R39). -/
def Part.beginWaitFor (f : FixtureIx) (cond : Condition) (p : Part) : Part :=
  let x := p.fx f
  match cond with
  | .channelEnd c =>
    if !(p.ch c).boundTo f then p.closeStep f (.incomplete .notBound)
    else match (p.ch c).state with
      | .faulted => p.closeStep f (.incomplete .channelFault)
      | .done => p.closeStep f .passed
      | .idle => p.closeStep f .passed
      | .playing => p
      | .starved => p
  | .supplyOn => if x.supply.state = .on then p.closeStep f .passed else p
  | .line l level =>
    if !x.outs.inEnable.getLsbD l.val then p.closeStep f (.incomplete .lineDisabled)
    else if x.outs.reads l = level then p.closeStep f .passed
    else p
  | .frame e =>
    if (x.watchOf e).enabled then p.modWatch f e fun w => { w with fresh := false }
    else p.closeStep f (.incomplete .watchDisabled)
  | .quiescent _ _ =>
    if x.supply.state = .on then (p.setProgress f (.quiescent none none none)).raiseRequest f .quiescent 4
    else p.closeStep f (.incomplete .supplyNotOn)

/-- A MEASURE step (R44, R45, R47, R48, R109). -/
def Part.beginMeasure (f : FixtureIx) (n : ProbeIx) (samples : Nat) (p : Part) : Part :=
  match p.probe n with
  | none => p.closeStep f (.incomplete .undefinedProbe)
  | some pr =>
    if pr.fixture ≠ f then p.closeStep f (.incomplete .undefinedProbe)
    else match pr.body with
      | .analog point settle dflt _ _ =>
        (p.setProgress f (.analog pr [])).raiseRequest f (.analog point settle) (if samples = 0 then dflt else samples)
      | .timing l _ window =>
        if (p.fx f).outs.inEnable.getLsbD l.val then
          (p.setProgress f (.timing pr)).modFx f fun x =>
            { x with capture := { state := .armed, line := l, window := window, periods := 0, total := 0, high := 0 } }
        else p.closeStep f (.incomplete .lineDisabled)
      | .frameField e _ _ _ _ _ _ =>
        if ((p.fx f).watchOf e).enabled then
          (p.setProgress f (.frameField pr)).modWatch f e fun w => { w with fresh := false }
        else p.closeStep f (.incomplete .undefinedProbe)

/-- A PROMPT step (R49). -/
def Part.beginPrompt (f : FixtureIx) (kind : PromptKind) (tag : BitVec 16) (text : List Byte) (p : Part) : Part :=
  let e := p.normalEntry f kind tag text
  (p.setProgress f (.prompt e.id)).addNormal e

/-- A step leaves the queue and becomes the step in flight; its start time is recorded (R19). -/
def Part.takeHead (f : FixtureIx) (st : Step) (rest : List Step) (p : Part) : Part :=
  p.modFx f fun x =>
    { x with queue := rest, stalled := false, inflight := some { step := st, startedAt := p.clock, progress := .plain } }

/-- A step begins acting as its kind specifies (R19). `grant` is what happens when a request joins the record arbiter. -/
def Part.beginStep (grant : Part → Part) (f : FixtureIx) (st : Step) (rest : List Step) (p : Part) : Part :=
  let p := p.takeHead f st rest
  match st.body with
  | .set _ => grant p
  | .start c => grant (p.beginStart f c)
  | .stop c => p.beginStop f c
  | .wait ms => if ms = 0 then p.closeStep f .passed else p
  | .waitFor cond _ => p.beginWaitFor f cond
  | .measure n samples _ _ _ _ => p.beginMeasure f n samples
  | .prompt kind _ text => p.beginPrompt f kind st.tag text
  | .mark => p

/-! ## The head of the queue (R9, R19, R20) -/

/-- The head is examined until a step is in flight, the queue is stalled or empty, or the run is no longer open. Each round
takes one step from the queue, so that one round more than the queue is long is enough. -/
def Part.runQueueWith (grant : Part → Part) (f : FixtureIx) : Nat → Part → Part
  | 0, p => p
  | n + 1, p =>
    let x := p.fx f
    if x.run.isOpen && x.inflight.isNone then
      match x.queue with
      | [] => if x.run.state = .closing then p.enterHalting f .none else p
      | st :: rest =>
        if st.isMark then Part.runQueueWith grant f n (p.modFx f fun x => { x with queue := rest })
        else if x.log.length < 64 then Part.runQueueWith grant f n (p.beginStep grant f st rest)
        else if x.stalled then p
        else (p.modFx f fun x => { x with stalled := true }).post (.logFull f)
    else p

/-- The head is examined while the record path is busy, so that no grant can follow. -/
def Part.runQueueBusy (f : FixtureIx) (p : Part) : Part := p.runQueueWith id f ((p.fx f).queue.length + 1)

/-! ## The record arbiter (R93 to R95) -/

/-- The record of a fixture's SET step that waits for its grant. -/
def Fixture.setRecord (x : Fixture) : Option (List Byte) :=
  match x.inflight with
  | some i =>
    match i.step.body with
    | .set r => some r
    | _ => none
  | none => none

/-- The level at which a due channel asks. -/
def Channel.asks (ch : Channel) : Option Level :=
  if ch.state = .playing && ch.due then ch.defn.map fun d => d.level else none

/-- A requester at the record arbiter. -/
inductive RecordRequester where
  | setStep (f : FixtureIx)
  | channel (c : ChannelIx)
  deriving DecidableEq, Repr

/-- The levels, most urgent first. -/
def allLevels : List Level := [0, 1, 2, 3]

/-- The SET request of a level: the lowest fixture. -/
def Part.setOfLevel (p : Part) (v : Level) : Option RecordRequester :=
  (allFixtures.find? fun f => (p.fx f).setRecord.isSome && (p.fx f).run.priority = v).map .setStep

/-- The channel request of a level: the lowest channel. -/
def Part.channelOfLevel (p : Part) (v : Level) : Option RecordRequester :=
  (allChannels.find? fun c => (p.ch c).asks = some v).map .channel

/-- The request the arbiter chooses (R94). -/
def Part.nextRecord (p : Part) : Option RecordRequester :=
  allLevels.findSome? fun v => (p.setOfLevel v).or (p.channelOfLevel v)

/-- A channel's report to the run controller: a WAIT_FOR CHANNEL_END of its fixture is examined (R35, R87). -/
def Part.channelReport (rq : Examine) (c : ChannelIx) (p : Part) : Part :=
  match (p.ch c).defn with
  | none => p
  | some d =>
    if (p.fx d.fixture).waitingFor = some (.channelEnd c) then
      match (p.ch c).state with
      | .done => p.endStep rq d.fixture .passed
      | .faulted => p.endStep rq d.fixture (.incomplete .channelFault)
      | _ => p
    else p

/-- A SET step is granted (R29, R95; log 10). -/
def Part.grantSet (f : FixtureIx) (p : Part) : Part :=
  match (p.fx f).setRecord with
  | none => p
  | some r =>
    let (q, out, w) := p.applyRecord f r
    ((q.closeStep f out.setEnd).follow Part.runQueueBusy f w).runQueueBusy f

/-- A head that is examined later, when all of an event has been heard. -/
def Part.notYet : Examine := fun _ p => p

/-- The head of a fixture's queue is examined, the record path being busy, if the step that was in flight has ended (R19, R21). -/
def Part.examineIfEnded (f : FixtureIx) (inFlight : Bool) (p : Part) : Part :=
  if inFlight && (p.fx f).inflight.isNone then p.runQueueBusy f else p

/-- A channel is granted (R79, R86, R95): what the record caused and the channel's report are both heard before the head of the
fixture's queue is examined (log 10). -/
def Part.grantChannel (c : ChannelIx) (p : Part) : Part :=
  match (p.ch c).defn with
  | none => p
  | some d =>
    let r := Pattern.slot p.pattern (p.ch c).position
    let (q, out, w) := p.applyRecord d.fixture r
    let q := match out.fault with
      | some reason => q.channelFaulted c reason
      | none => q.channelApplied c d (recordDwell r)
    ((q.follow Part.notYet d.fixture w).channelReport Part.notYet c).examineIfEnded d.fixture (p.fx d.fixture).inflight.isSome

/-- The arbiter grants one request when the path is free and the set is not empty; the path is then busy for 5 µs (R94). -/
def Part.tryGrant (p : Part) : Part :=
  if p.pathBusy.isSome then p
  else match p.nextRecord with
    | none => p
    | some (.setStep f) => { p with pathBusy := some (p.clock + 5) }.grantSet f
    | some (.channel c) => { p with pathBusy := some (p.clock + 5) }.grantChannel c

/-- The head of a fixture's queue is examined (R19, R9). -/
def Part.runQueue (f : FixtureIx) (p : Part) : Part := p.runQueueWith Part.tryGrant f ((p.fx f).queue.length + 1)

/-- A step ends in an event outside the record arbiter. -/
def Part.finish (f : FixtureIx) (e : StepEnd) (p : Part) : Part := p.endStep Part.runQueue f e

end Sys2Proof.Machine
end

