-- ==== Sys2Proof/Machine/Measure.lean ====
section
/-! DEFINITION. What the converter returns: the end of a burst, the judgement of readings and measurements, the reference
check, and the READY wait (R39 to R41, R46, R68, R69, R130, R133, R135). -/

namespace Sys2Proof.Machine

open Sys2Proof

/-- The reference check is judged (R135). -/
def Part.judgeReference (codes : List Nat) (p : Part) : Part :=
  let mean := halfUp codes.sum 4
  if 2700 ≤ mean ∧ mean ≤ 3300 then
    let was := p.conv.refFault
    let p := p.modConv fun v => { v with cref := mean, refFault := false }
    if was then p.post (.refState false mean mean) else p
  else if p.conv.refFault then p
  else (p.modConv fun v => { v with refFault := true }).post (.refState true p.conv.cref mean)

/-- How an ANALOG measurement with all its samples ends (R46, R149, R151). -/
def Part.analogEnd (p : Part) (i : InFlight) (pr : Probe) (point : Fin 12) (low high : Int) (codes : List Nat) : StepEnd :=
  let span := pointSpan point low high
  let (lower, upper, guard) := i.step.body.limits
  let (verdict, reason, value) :=
    judgeAnalog p.conv.refFault codes (analogValue codes p.conv.cref span) span lower upper guard
  { verdict := verdict, reason := reason, value := some value, unit := some pr.unit, mean16 := some (mean16Of codes)
    range := if point = 9 then some .high else none }

/-- A reading's effect on the current range (R68, R69). -/
def Part.rangeAfter (f : FixtureIx) (rd : Reading) (clipped : Bool) (p : Part) : Part :=
  let s := (p.fx f).supply
  if rd.range = .high ∧ rd.value < 8000 ∧ s.state = .on then p.changeRange f .low
  else if rd.range = .low ∧ clipped = true then p.rangeHigh f
  else p

/-- A QUIESCENT reading is judged (R39, R40). -/
def Part.judgeReading (f : FixtureIx) (i : InFlight) (since : Option (BitVec 32)) (range : Range) (codes : List Nat)
    (p : Part) : Part :=
  match i.step.body with
  | .waitFor (.quiescent threshold hold) _ =>
    let rd := readingOf codes p.conv.cref range
    if p.conv.refFault then p.finish f (.withReading .incomplete .ref (some rd))
    else
      let below := !clipHigh codes && decide (rd.value < threshold)
      let start := since.getD p.uptime
      if below && decide (hold ≤ (p.uptime - start).toNat) then p.finish f (.withReading .pass .none (some rd))
      else
        (p.setProgress f (.quiescent (some rd) (if below then some start else none) (some (p.clock / 1000 + 10)))).rangeAfter
          f rd (clipHigh codes)
  | _ => p

/-- A fixture's requester receives the codes of a burst (R130, stages 1 and 2). -/
def Part.deliver (f : FixtureIx) (input : ConvInput) (codes : List Nat) (p : Part) : Part :=
  match p.conv.req f, (p.fx f).inflight with
  | some r, some i =>
    let left := r.remaining - codes.length
    let p := p.modConv fun v => v.setReq f (if left = 0 then none else some { r with remaining := left })
    match i.progress with
    | .analog pr taken =>
      if left = 0 then
        match pr.body with
        | .analog point _ _ low high => p.finish f (p.analogEnd i pr point low high (taken ++ codes))
        | _ => p
      else p.setProgress f (.analog pr (taken ++ codes))
    | .quiescent _ since _ =>
      p.judgeReading f i since (match input with | .point _ _ r => r | .reference => .high) codes
    | _ => p
  | _, _ => p

/-- The codes a burst returns: its first k, or 4095 throughout after a return to HIGH (R71, R130). -/
def Burst.codes (b : Burst) (cs : Codes) : List Nat :=
  if b.broken then List.replicate b.count 4095 else (cs.toList.take b.count).map fun c => c.toNat

/-- A burst ends (R130). -/
def Part.endBurst (b : Burst) (cs : Codes) (p : Part) : Part :=
  let codes := b.codes cs
  let p :=
    if b.orphan then p
    else match b.requester with
      | .reference => (p.modConv fun v => { v with reference := none }).judgeReference codes
      | .fixture f => p.deliver f b.input codes
  (p.modConv fun v => { v with burst := none }).afterBurst

/-- The READY wait of a fixture's burst has failed (R133). The burst stays until the step has ended, so that nothing is
granted before. -/
def Part.readyFailed (f : FixtureIx) (p : Part) : Part :=
  let p := p.modConv fun v => { v with burst := v.burst.map fun b => { b with orphan := true } }
  ((p.finish f (.incomplete .notReady)).dropBurst).afterBurst

/-- The fixture whose burst is in its READY wait, with the clock at the grant. -/
def Converter.readyWait (v : Converter) : Option (FixtureIx × Nat) :=
  match v.burst with
  | some b =>
    match b.requester, b.stage with
    | .fixture f, .waitReady g => some (f, g)
    | _, _ => none
  | none => none

/-- The reference timer expires: its next expiry follows a second later, and the check is raised if none waits (R134). -/
def Part.referenceDue (p : Part) : Part :=
  let p := p.modConv fun v => { v with refDue := v.refDue + 1000000 }
  if p.conv.reference.isNone then (p.modConv fun v => { v with reference := some 4 }).tryBurst else p

end Sys2Proof.Machine
end

