-- ==== Sys2Proof/Machine/FixtureEvents.lean ====
section
/-! DEFINITION. The events of a fixture's switches, steps, outputs, lines and bus port (chapters 1, 2, 5 and 6). An expiry acts
only while its timer runs, and time passes to its deadline first (log 2). -/

namespace Sys2Proof.Machine

open Sys2Proof

/-! ## Debounced switches (R1, R4) -/

/-- A debounce of 20 ms runs while the raw level differs from the debounced one (R1, R167). -/
def debounce (raw level : Bool) (now : Nat) : Option Nat := if raw = level then none else some (now + 20000)

/-- The debounces after a raw change to `raw`: the running one and the one that follows it. A debounce that has run its 20 ms stands,
and the change is debounced against the level it will give (R1, R167; log 15). -/
def redebounce (raw level : Bool) (due : Option Nat) (now : Nat) : Option Nat × Option Nat :=
  if due.any fun t => t ≤ now then (due, debounce raw (!level) now) else (debounce raw level now, none)

/-- The level a debounce gives at its end: the raw one, unless a reversal came too late to stop it (R1, R167; log 15). -/
def settledLevel (raw : Bool) (after : Option Nat) : Bool := raw != after.isSome

/-- The raw switch of a fixture changes (R1). -/
def Sense.rawChange (s : Sense) (sw : Switch) (closed : Bool) (now : Nat) : Sense :=
  match sw with
  | .presence =>
    if s.rawPresence = closed then s
    else
      let d := redebounce closed s.presence s.presenceDue now
      { s with rawPresence := closed, presenceDue := d.1, presenceAfter := d.2 }
  | .lid =>
    if s.rawLid = closed then s
    else
      let d := redebounce closed s.lid s.lidDue now
      { s with rawLid := closed, lidDue := d.1, lidAfter := d.2 }

/-- A raw switch changes: the pin always, its debounce only at a fitted fixture of a running part (R1, R2, R186). -/
def Part.switchRaw (f : FixtureIx) (sw : Switch) (closed : Bool) (p : Part) : Part :=
  p.modFx f fun x =>
    { x with sense :=
        if p.powered && p.isFitted f then x.sense.rawChange sw closed p.clock
        else match sw with
          | .presence => { x.sense with rawPresence := closed }
          | .lid => { x.sense with rawLid := closed } }

/-- FIXTURE_SENSE with the levels as they stand (R1). -/
def Part.postSense (f : FixtureIx) (p : Part) : Part :=
  p.post (.fixtureSense f (p.fx f).sense.presence (p.fx f).sense.lid)

/-- The interlock (R4). -/
def Part.interlock (f : FixtureIx) (text : List Byte) (p : Part) : Part :=
  let u := (p.fx f).run
  if u.isOpen then ((p.cutSupply f).enterHalting f .lid).giveSafety f text
  else if u.state = .halting then p.cutSupply f
  else p

/-- The lid's debounce ends: the level takes its new value (R1, R4). -/
def Part.lidSettled (f : FixtureIx) (p : Part) : Part :=
  let p := p.modFx f fun x =>
    { x with sense := { x.sense with lid := settledLevel x.sense.rawLid x.sense.lidAfter, lidDue := x.sense.lidAfter, lidAfter := none } }
  let p := p.postSense f
  if (p.fx f).sense.lid then p else p.interlock f textLidOpen

/-- The presence switch's debounce ends (R1, R4). -/
def Part.presenceSettled (f : FixtureIx) (p : Part) : Part :=
  let p := p.modFx f fun x =>
    { x with sense :=
        { x.sense with presence := settledLevel x.sense.rawPresence x.sense.presenceAfter
                       presenceDue := x.sense.presenceAfter, presenceAfter := none } }
  let p := p.postSense f
  if (p.fx f).sense.presence then p else p.interlock f textUnitRemoved

/-- Both debounces end within one millisecond (R1; log 15). -/
def Sense.together (s : Sense) : Bool :=
  match s.presenceDue, s.lidDue with
  | some a, some b => a / 1000 = b / 1000
  | _, _ => false

/-- When the presence switch's debounce is taken: with the lid's, if both end within one millisecond (R1; log 15). -/
def Sense.presenceAt (s : Sense) : Option Nat :=
  if s.together then some (max (s.presenceDue.getD 0) (s.lidDue.getD 0)) else s.presenceDue

/-- A debounce of the lid switch ends. -/
def Part.settleLid (f : FixtureIx) (p : Part) : Part :=
  match (p.fx f).sense.lidDue with
  | none => p
  | some t => (p.advanceTo t).lidSettled f

/-- A debounce of the presence switch ends, after the lid's if both end within one millisecond. -/
def Part.settlePresence (f : FixtureIx) (p : Part) : Part :=
  match (p.fx f).sense.presenceAt with
  | none => p
  | some t =>
    let p := p.advanceTo t
    (if (p.fx f).sense.together then p.lidSettled f else p).presenceSettled f

/-- A debounce of a fixture's switch ends (R1). -/
def Part.senseDebounced (f : FixtureIx) (sw : Switch) (p : Part) : Part :=
  match sw with
  | .lid => p.settleLid f
  | .presence => p.settlePresence f

/-! ## Timers of steps (R26, R33, R39) -/

/-- The timeout of a step kind in ms, 0 for none (R25). -/
def StepBody.timeout : StepBody → Nat
  | .waitFor _ t => t
  | .measure _ _ _ _ _ t => t
  | .prompt _ t _ => t
  | _ => 0

/-- The deadline of the step in flight (R26). -/
def Fixture.timeoutAt (x : Fixture) : Option Nat :=
  match x.inflight with
  | some i => if i.step.body.timeout = 0 then none else some (i.startedAt + i.step.body.timeout * 1000)
  | none => none

/-- What a timeout ends a step with (R34, R42, R46 to R48, R50). -/
def Part.timeoutEnd (p : Part) (f : FixtureIx) (i : InFlight) : StepEnd :=
  match i.progress with
  | .plain => { verdict := .fail, reason := .timeout }
  | .quiescent last _ _ => .withReading .fail .timeout last
  | .analog _ _ => .incomplete .timeout
  | .timing _ => if (p.fx f).capture.state = .counting then .incomplete .timeout else .incomplete .noEdges
  | .frameField _ => .incomplete .timeout
  | .prompt _ => .incomplete .noAnswer

/-- A step's timeout expires (R26). -/
def Part.stepTimedOut (f : FixtureIx) (p : Part) : Part :=
  match (p.fx f).timeoutAt, (p.fx f).inflight with
  | some t, some i =>
    let p := p.advanceTo t
    p.finish f (p.timeoutEnd f i)
  | _, _ => p

/-- The end of a WAIT step's duration. -/
def Fixture.waitUntil (x : Fixture) : Option Nat :=
  match x.inflight with
  | some i =>
    match i.step.body with
    | .wait ms => some (i.startedAt + ms * 1000)
    | _ => none
  | none => none

/-- A WAIT step's duration expires (R33). -/
def Part.waitOver (f : FixtureIx) (p : Part) : Part :=
  match (p.fx f).waitUntil with
  | some t => (p.advanceTo t).finish f .passed
  | none => p

/-- next_due of a QUIESCENT step, in µs (R39). -/
def Fixture.readingAt (x : Fixture) : Option Nat :=
  match x.inflight with
  | some i =>
    match i.progress with
    | .quiescent _ _ (some ms) => some (ms * 1000)
    | _ => none
  | none => none

/-- A QUIESCENT step requests its next reading (R39). -/
def Part.readingDue (f : FixtureIx) (p : Part) : Part :=
  match (p.fx f).readingAt, (p.fx f).inflight with
  | some t, some i =>
    match i.progress with
    | .quiescent last since _ => ((p.advanceTo t).setProgress f (.quiescent last since none)).raiseRequest f .quiescent 4
    | _ => p
  | _, _ => p

/-! ## Arbiter, dwells, dimmer, pulses, lines and capture -/

/-- A transfer ends: the path is free for the next grant (R94). -/
def Part.transferOver (p : Part) : Part :=
  match p.pathBusy with
  | none => p
  | some t => { p.advanceTo t with pathBusy := none }.tryGrant

/-- The end of a channel's running dwell. -/
def Channel.dwellAt (ch : Channel) : Option Nat := if ch.state = .playing && !ch.due then some ch.dwellEnd else none

/-- A channel's dwell expires (R79). The end of a bank, with its notices, precedes the grant of the next pass's first record, so that
END and BANK_FREE are posted before that pass's own notices, such as the HALF of a bank of two: an order R87 leaves open (log 39). -/
def Part.dwellOver (c : ChannelIx) (p : Part) : Part :=
  match (p.ch c).dwellAt with
  | none => p
  | some t => (((p.advanceTo t).dwellDone c).channelReport Part.runQueue c).tryGrant

/-- The dimmer's next period start. -/
def Outputs.periodAt (o : Outputs) : Option Nat := if o.pwm.enabled then some o.pwm.nextStart else none

/-- A period starts (R99). -/
def Part.periodStarts (f : FixtureIx) (p : Part) : Part :=
  match (p.fx f).outs.periodAt with
  | none => p
  | some t => (p.advanceTo t).modOuts f fun o => { o with pwm := o.pwm.takeUp }

/-- The pulse generator's next phase boundary. -/
def Outputs.phaseAt (o : Outputs) : Option Nat := if o.pulse.phase = .stopped then none else some o.pulse.boundary

/-- A pulse phase ends (R103). -/
def Part.phaseEnds (f : FixtureIx) (p : Part) : Part :=
  match (p.fx f).outs.phaseAt with
  | none => p
  | some t => (p.advanceTo t).modOuts f fun o => { o with pulse := o.pulse.step }

/-- A byte of line levels with one line set. -/
def withBit (w : BitVec 8) (l : LineIx) (v : Bool) : BitVec 8 :=
  if v then w ||| (1#8 <<< l.val) else w &&& ~~~(1#8 <<< l.val)

/-- A line's pin changes: the pin always, the report only at a running part (R108). -/
def Part.lineLevel (f : FixtureIx) (l : LineIx) (v : Bool) (p : Part) : Part :=
  let before := (p.fx f).outs
  let q := p.modOuts f fun o => { o with pins := withBit o.pins l v }
  if q.powered then q.lineReaction Part.runQueue f before else q

/-- The clock at which T reaches 16,000,000 µs (R111). -/
def Part.overflowAt (p : Part) (f : FixtureIx) : Option Nat :=
  match (p.fx f).capture.state with
  | .counting => some (p.clock + (16000000 - (p.fx f).capture.total))
  | _ => none

/-- The capture unit overflows (R111). -/
def Part.overflows (f : FixtureIx) (p : Part) : Part :=
  match p.overflowAt f with
  | some t => (p.advanceTo t).finish f (.incomplete .noEdges)
  | none => p

/-! ## Bus port (R113 to R120) -/

/-- A watch entry matches a frame (R119). -/
def Watch.hits (w : Watch) (fr : BusFrame) : Bool :=
  w.enabled && w.extended == fr.extended && fr.id &&& w.mask == w.id &&& w.mask

/-- The length a data frame is treated as having (R113). -/
def frameLength (fr : BusFrame) : Nat := min 8 fr.dlc.toNat

/-- A match updates the entry's capture (R120). -/
def Watch.capture (w : Watch) (fr : BusFrame) (now : BitVec 32) : Watch :=
  { w with count := sat16 (w.count + 1), length := frameLength fr, data := padTo 8 0 (fr.data.take (frameLength fr)), lastTime := now
           fresh := true }

/-- The watch entry the step in flight waits on (R38, R48). -/
def Fixture.watchedEntry (x : Fixture) : Option (Fin 8) :=
  match x.inflight with
  | some i =>
    match i.progress with
    | .frameField pr =>
      match pr.body with
      | .frameField e _ _ _ _ _ _ => some e
      | _ => none
    | _ =>
      match i.step.body with
      | .waitFor (.frame e) _ => some e
      | _ => none
  | none => none

/-- What a match ends the waiting step with (R38, R48, R154, R155). -/
def InFlight.matched (i : InFlight) (w : Watch) : StepEnd :=
  match i.progress with
  | .frameField pr =>
    match pr.body with
    | .frameField _ start width signed num den offset =>
      i.measured pr.unit (fieldValue (fieldRaw w.data start width signed) num den offset)
    | _ => .passed
  | _ => .passed

/-- A data frame is offered to the watch table: every matching entry is updated, then a waiting step is told (R119, R120). -/
def Part.offer (f : FixtureIx) (fr : BusFrame) (p : Part) : Part :=
  let x := p.fx f
  let q := p.modFx f fun x => { x with watch := mapEntries (fun w => if w.hits fr then w.capture fr p.uptime else w) x.watch }
  match x.watchedEntry, x.inflight with
  | some e, some i => if (x.watchOf e).hits fr then q.finish f (i.matched ((q.fx f).watchOf e)) else q
  | _, _ => q

/-- A frame ends on a fixture's bus (R112, R113). -/
def Part.frameEnds (f : FixtureIx) (fr : BusFrame) (p : Part) : Part :=
  if (p.fx f).port.state = .inactive ∨ fr.underWay = true then p
  else match fr.kind with
    | .own => p
    | .damaged => p.modPort f fun t => { t with response := .error }
    | .remote => p.modPort f fun t => { t with response := .acknowledge }
    | .data => (p.modPort f fun t => { t with response := .acknowledge }).offer f fr

/-- An attempt begins on the head frame (R115). -/
def Part.attemptBegins (f : FixtureIx) (p : Part) : Part :=
  let t := (p.fx f).port
  if t.state = .active ∧ t.queue ≠ [] ∧ t.attempt = .none then p.modPort f fun t => { t with attempt := .head } else p

/-- A counted failure of the head: one attempt more, or given up at the eighth (R115, R116). -/
def Part.attemptFails (f : FixtureIx) (p : Part) : Part :=
  match (p.fx f).port.queue with
  | [] => p
  | h :: rest =>
    if 8 ≤ h.attempts + 1 then
      (p.modPort f fun t => { t with queue := rest, attempt := .none, response := .error }).post (.txGivenUp f h.id h.extended)
    else p.modPort f fun t =>
      { t with queue := { h with attempts := h.attempts + 1 } :: rest, attempt := .none, response := .error }

/-- An attempt ends (R115 to R117). -/
def Part.attemptOver (f : FixtureIx) (o : AttemptOutcome) (p : Part) : Part :=
  match (p.fx f).port.attempt with
  | .none => p
  | .orphan _ => p.modPort f fun t => { t with attempt := .none }
  | .head =>
    match o with
    | .success => p.modPort f fun t => { t with queue := t.queue.tail, attempt := .none }
    | .lostArbitration => p.modPort f fun t => { t with attempt := .none }
    | .noAcknowledge => p.attemptFails f
    | .busError => p.attemptFails f

/-! ## Supplies (R53, R58 to R63, R70) -/

/-- The in-regulation comparator changes (R53, R58). At setpoint 0 it cannot clear; holding at any other setpoint it puts the
output above 500 mV (log 8). -/
def Part.regulation (f : FixtureIx) (holds : Bool) (p : Part) : Part :=
  let s := (p.fx f).supply
  if holds = false ∧ s.setpoint = 0 then p
  else
    let p := p.modSupply f fun s =>
      { s with inRegulation := holds, below500 := s.below500 && !(holds && decide (3000 ≤ s.setpoint)) }
    if p.powered = true ∧ holds = true ∧ (p.fx f).supply.state = .ramp then p.enterOn Part.runQueue f else p

/-- The at-limit comparator comes to hold; it cannot with the output disconnected (R53, R60). -/
def Part.limitHolds (f : FixtureIx) (p : Part) : Part :=
  if (p.fx f).supply.live then
    let p := p.modSupply f fun s => { s with atLimit := true }
    if (p.fx f).supply.state = .on then p.enterLimit f else p
  else p

/-- The at-limit comparator clears (R61). -/
def Part.limitClears (f : FixtureIx) (p : Part) : Part :=
  let p := p.modSupply f fun s => { s with atLimit := false }
  if (p.fx f).supply.state = .limit then p.backToOn Part.runQueue f else p

/-- The below-500 mV comparator changes (R53, R62). An output below 500 mV is not in regulation at a setpoint above 0 (log 8). -/
def Part.below (f : FixtureIx) (holds : Bool) (p : Part) : Part :=
  let p := p.modSupply f fun s =>
    { s with below500 := holds, inRegulation := s.inRegulation && !(holds && decide (3000 ≤ s.setpoint)) }
  if p.powered then (p.endDischarge f).endRun f else p

/-- The deadline of the timer of a supply's state (section 3.1). -/
def Supply.timerAt (s : Supply) : Option Nat :=
  match s.state with
  | .ramp => some (s.since + 250000)
  | .limit => some (s.since + s.limitTime * 1000)
  | .discharge => some (s.since + 1000000)
  | _ => none

/-- The ramp timer expires (R59). -/
def Part.rampOver (f : FixtureIx) (p : Part) : Part :=
  if (p.fx f).supply.state = .ramp then (p.advanceTo ((p.fx f).supply.since + 250000)).tripSupply f .rampTimeout else p

/-- The limit timer expires (R61). -/
def Part.limitOver (f : FixtureIx) (p : Part) : Part :=
  let s := (p.fx f).supply
  if s.state = .limit then (p.advanceTo (s.since + s.limitTime * 1000)).tripSupply f .overcurrent else p

/-- The discharge timer expires (R63). -/
def Part.dischargeOver (f : FixtureIx) (p : Part) : Part :=
  if (p.fx f).supply.state = .discharge then (p.advanceTo ((p.fx f).supply.since + 1000000)).dischargeFailed f else p

end Sys2Proof.Machine
end

