-- ==== Sys2Proof/Machine/PartEvents.lean ====
section
/-! DEFINITION. The events of the rack monitor, the converter and the matrix, and the consoles (sections 3.7, 7.2 to 7.5 and
chapter 9). An expiry acts only while its timer runs, and time passes to its deadline first (log 2). -/

namespace Sys2Proof.Machine

open Sys2Proof

/-! ## Rack monitor (R72, R73) -/

/-- One change of level for an input voltage in mV, if one is due (R72). -/
def RackLevel.next (v : RackLevel) (mv : Nat) : RackLevel :=
  match v with
  | .normal => if mv ≤ 22000 then .low else .normal
  | .low => if mv ≤ 19000 then .cutoff else if 22500 < mv then .normal else .low
  | .cutoff => if 19500 < mv then .low else .cutoff

/-- The level loaded at a power-on or brownout reset (R72). -/
def RackLevel.loaded (mv : Nat) : RackLevel := if mv ≤ 19000 then .cutoff else if mv ≤ 22000 then .low else .normal

/-- The level takes one step, with its notice (R72). -/
def Part.rackStep (p : Part) : Part :=
  let old := p.rack.level
  let new := old.next p.rack.mv
  if new = old then p else { p with rack := { p.rack with level := new } }.post (.rackLevel new old)

/-- A live supply is tripped by the rack cutoff (R73). -/
def Part.rackTrip (f : FixtureIx) (p : Part) : Part := if (p.fx f).supply.live then p.tripSupply f .rack else p

/-- The rack input moves: the level follows, and entry to CUTOFF trips every live supply in fixture order (R72, R73). -/
def Part.rackMoves (mv : Nat) (p : Part) : Part :=
  let p := { p with rack := { p.rack with mv := mv } }
  if p.powered then
    let old := p.rack.level
    let p := p.rackStep.rackStep
    if p.rack.level = .cutoff ∧ old ≠ .cutoff then p.each allFixtures fun f q => q.rackTrip f else p
  else p

/-! ## Converter (R130 to R134) -/

/-- The end of a fixed settle. -/
def Converter.settleAt (v : Converter) : Option Nat :=
  match v.burst with
  | some b =>
    match b.stage with
    | .settling t => some t
    | _ => none
  | none => none

/-- A fixed settle ends (R132). -/
def Part.settleOver (p : Part) : Part :=
  match p.conv.settleAt with
  | some t => (p.advanceTo t).startConverting
  | none => p

/-- The READY wait of a fixture is met: its sense-ready reads ready 100 µs or more after the grant (R133). -/
def Part.readyMet (p : Part) (f : FixtureIx) : Bool :=
  match p.conv.readyWait with
  | some (h, g) => h = f && (p.fx f).sense.ready && decide (g + 100 ≤ p.clock)
  | none => false

/-- The sense-ready pin of a fixture is at a level: the pin always, the READY wait at a running part (R133). -/
def Part.senseReady (f : FixtureIx) (ready : Bool) (p : Part) : Part :=
  let p := p.modFx f fun x => { x with sense := { x.sense with ready := ready } }
  if p.powered && p.readyMet f then p.startConverting else p

/-- A READY wait fails 50 ms after its grant (R133). -/
def Part.readyOver (p : Part) : Part :=
  match p.conv.readyWait with
  | some (f, g) => if (p.fx f).sense.ready then p else (p.advanceTo (g + 50000)).readyFailed f
  | none => p

/-- The burst in conversion and its end. -/
def Converter.converting (v : Converter) : Option (Burst × Nat) :=
  match v.burst with
  | some b =>
    match b.stage with
    | .converting t => some (b, t)
    | _ => none
  | none => none

/-- A burst's last sample has been taken (R130). -/
def Part.burstOver (cs : Codes) (p : Part) : Part :=
  match p.conv.converting with
  | some (b, t) => (p.advanceTo t).endBurst b cs
  | none => p

/-- The reference timer expires (R134). -/
def Part.referenceOver (p : Part) : Part := (p.advanceTo p.conv.refDue).referenceDue

/-! ## Lends (R136, R138 to R141) -/

/-- The hold line rises (R136). -/
def Part.holdRises (p : Part) : Part :=
  if p.lend.holdLine then p
  else
    let p := p.modLend fun l => { l with holdLine := true }
    if !p.powered || p.lend.holdBlocked then p
    else match p.lend.matrix with
      | .owned => p.lendRequest .hold p.lend.holdLimit
      | .pending .request _ => p.modLend fun l => { l with holdBlocked := true }
      | .lent .request _ _ => p.modLend fun l => { l with holdBlocked := true }
      | .pending .hold _ => p
      | .lent .hold _ _ => p

/-- The hold line drops (R136). -/
def Part.holdDrops (p : Part) : Part :=
  if p.lend.holdLine then
    let p := p.modLend fun l => { l with holdLine := false }
    if !p.powered then p
    else if p.lend.holdBlocked then p.modLend fun l => { l with holdBlocked := false }
    else match p.lend.matrix with
      | .lent .hold _ t => p.endLend .reclaimed .hold t
      | .pending .hold _ => p.modLend fun l => { l with matrix := .owned }
      | .owned => p
      | .pending .request _ => p
      | .lent .request _ _ => p
  else p

/-- A pending lend is granted when no burst is in progress (R138). -/
def Part.lendGranted (p : Part) : Part :=
  match p.lend.matrix with
  | .pending source limit => if p.conv.burst.isNone then p.grantLend source limit else p
  | _ => p

/-- The end of a lend takes hold_blocked along while the line is still raised (R140, R141). -/
def Part.blockHold (source : LendSource) (p : Part) : Part :=
  if source = .hold ∧ p.lend.holdLine = true then p.modLend fun l => { l with holdBlocked := true } else p

/-- The end of a lend's limit. -/
def Lend.limitAt (l : Lend) : Option Nat :=
  match l.matrix with
  | .lent _ limit t => some (t + limit * 1000)
  | _ => none

/-- A lend overruns its limit (R141). -/
def Part.lendOverruns (p : Part) : Part :=
  match p.lend.matrix with
  | .lent source limit t => ((p.advanceTo (t + limit * 1000)).blockHold source).endLend .overrun source t
  | _ => p

/-! ## Buttons (R162 to R166) -/

/-- A button of a console. -/
def Console.button (c : Console) : Button → ButtonState
  | .pass => c.pass
  | .fail => c.fail

/-- A button of a console set. -/
def Console.setButton (c : Console) (k : Button) (v : ButtonState) : Console :=
  match k with
  | .pass => { c with pass := v }
  | .fail => { c with fail := v }

/-- The other button. -/
def otherButton : Button → Button
  | .pass => .fail
  | .fail => .pass

/-- A press that is not yet decided becomes part of a chord (R163). -/
def Press.chorded (r : Press) : Press := if r.phase = .long then r else { r with phase := .cancelled }

/-- A button goes down on a running part: its press binds to the shown entry (R162, R163). -/
def Console.press (c : Console) (k : Button) (now : Nat) : Console :=
  let o := c.button (otherButton k)
  let r : Press :=
    { phase := if o.down then .cancelled else .qualifying, bound := c.entries.head?.map (·.id), longTime := c.longTime
      downAt := now }
  (c.setButton (otherButton k) { o with press := if o.down then o.press.map Press.chorded else o.press }).setButton k
    { down := true, press := some r }

/-- A button goes down; a part held in reset keeps the pin alone (R186). -/
def Part.buttonGoesDown (c : ConsoleId) (k : Button) (p : Part) : Part :=
  if ((p.con c).button k).down then p
  else p.modCon c fun x => if p.powered then x.press k p.clock else x.setButton k { down := true, press := none }

/-- The press of a button in a phase. -/
def Console.pressIn (c : Console) (k : Button) (ph : PressPhase) : Option Press :=
  match (c.button k).press with
  | some r => if r.phase = ph then some r else none
  | none => none

/-- A press has been down for 60 ms (R162). -/
def Part.pressReaches60ms (c : ConsoleId) (k : Button) (p : Part) : Part :=
  match (p.con c).pressIn k .qualifying with
  | some r =>
    (p.advanceTo (r.downAt + 60000)).modCon c fun x =>
      x.setButton k { x.button k with press := some { r with phase := .held } }
  | none => p

/-- The entry a press is bound to, if it still stands in the list (R164). -/
def Console.boundEntry (c : Console) (r : Press) : Option Entry :=
  match r.bound with
  | none => none
  | some n => c.entries.find? fun e => e.id = n

/-- An entry leaves the list. -/
def Console.drop (c : Console) (n : Nat) : Console := { c with entries := c.entries.filter fun e => e.id ≠ n }

/-- An entry moves to the bottom of the NORMAL group (R165). -/
def Console.defer (c : Console) (e : Entry) : Console := { c with entries := (c.entries.filter fun x => x.id ≠ e.id) ++ [e] }

/-- A short press acts on its entry (R165). -/
def Part.shortPress (c : ConsoleId) (k : Button) (e : Entry) (p : Part) : Part :=
  match k, e.cls with
  | .pass, .normal _ _ _ => p.finish e.owner .passed
  | .pass, .safety => p.modCon c fun x => x.drop e.id
  | .fail, .normal .confirm _ _ => p.finish e.owner { verdict := .fail, reason := .operator }
  | .fail, .normal .ack _ _ => p
  | .fail, .safety => p

/-- A long press acts on its entry (R165, R166). -/
def Part.longPress (c : ConsoleId) (k : Button) (e : Entry) (p : Part) : Part :=
  match k, e.cls with
  | .pass, .normal _ _ _ => p.modCon c fun x => x.defer e
  | .pass, .safety => p
  | .fail, _ => p.haltRequest e.owner .operatorReject

/-- A button goes up: a HELD press is decided as short, any other is ignored (R162 to R164). -/
def Part.buttonGoesUp (c : ConsoleId) (k : Button) (p : Part) : Part :=
  if ((p.con c).button k).down then
    let held := (p.con c).pressIn k .held
    let p := p.modCon c fun x => x.setButton k {}
    match held with
    | some r =>
      match (p.con c).boundEntry r with
      | some e => p.shortPress c k e
      | none => p
    | none => p
  else p

/-- A HELD press reaches its long time (R164). -/
def Part.pressReachesLongTime (c : ConsoleId) (k : Button) (p : Part) : Part :=
  match (p.con c).pressIn k .held with
  | some r =>
    let p := (p.advanceTo (r.downAt + r.longTime * 1000000)).modCon c fun x =>
      x.setButton k { x.button k with press := some { r with phase := .long } }
    match (p.con c).boundEntry r with
    | some e => p.longPress c k e
    | none => p
  | none => p

/-! ## STOP switch and flash clock (R167, R169) -/

/-- A STOP switch's raw level changes: the pin always, its debounce at a running part (R167). -/
def Part.stopRawChange (c : ConsoleId) (pressed : Bool) (p : Part) : Part :=
  p.modCon c fun x =>
    if x.stopRaw = pressed then x
    else
      let d := if p.powered then redebounce pressed x.stopLevel x.stopDue p.clock else (none, none)
      { x with stopRaw := pressed, stopDue := d.1, stopAfter := d.2 }

/-- A pressed STOP switch halts a fixture's run and cuts its supply (R167). -/
def Part.stopFixture (f : FixtureIx) (p : Part) : Part :=
  if p.isFitted f then (p.haltRequest f .operatorStop).cutSupply f else p

/-- A STOP switch's debounce ends (R167, R168). -/
def Part.stopSettled (c : ConsoleId) (p : Part) : Part :=
  match (p.con c).stopDue with
  | none => p
  | some t =>
    let p := (p.advanceTo t).modCon c fun x =>
      { x with stopLevel := settledLevel x.stopRaw x.stopAfter, stopDue := x.stopAfter, stopAfter := none }
    let pressed := (p.con c).stopLevel
    let p := if pressed then p.each (servedBy c) fun f q => q.stopFixture f else p
    p.post (.consoleStop c pressed)

/-- The flash clock takes its next phase (R169). -/
def Part.flashTurns (p : Part) : Part :=
  let p := p.advanceTo p.flash.due
  { p with flash := { phase := p.flash.phase + 1, due := p.flash.due + 125000 } }

end Sys2Proof.Machine
end

