-- ==== Sys2Proof/Machine/Requests.lean ====
section
/-! DEFINITION. What the owning blocks do with each request of section 10.6, and the bytes they answer (R178, chapter 11). A
handler takes the payload and gives the part after the request with the reply's payload, result code first. -/

namespace Sys2Proof.Machine

open Sys2Proof

/-- The result codes (R178). -/
inductive ResultCode
  | ok | unknownRequest | badLength | badField | notFitted | wrongState | lidOpen | noUnit | stopped | faultLatched
  | queueFull | inUse
  deriving DecidableEq, Repr

/-- Code of a result (R178). -/
def ResultCode.code : ResultCode → Nat
  | .ok => 0 | .unknownRequest => 1 | .badLength => 2 | .badField => 3 | .notFitted => 4 | .wrongState => 5 | .lidOpen => 6
  | .noUnit => 7 | .stopped => 8 | .faultLatched => 9 | .queueFull => 10 | .inUse => 11

/-- The part after a request, and the payload of its reply. -/
abbrev Answer := Part × List Byte

/-- The request is accepted, with its data. -/
def Part.accept (p : Part) (data : List Byte) : Answer := (p, le8 ResultCode.ok.code ++ data)

/-- The request is refused: the part is as it was, and the code carries a detail (R178). -/
def Part.refuse (p : Part) (c : ResultCode) (detail : List Byte := []) : Answer := (p, le8 c.code ++ detail)

/-- A fixed payload length, else BAD_LENGTH (R189). -/
def Part.ofLength (n : Nat) (payload : List Byte) (h : Part → Answer) (p : Part) : Answer :=
  if payload.length = n then h p else p.refuse .badLength

/-- The fixture named at an offset, else NOT_FITTED (R2). -/
def Part.atFixture (payload : List Byte) (i : Nat) (h : FixtureIx → Part → Answer) (p : Part) : Answer :=
  match p.namedFixture (byteAt payload i) with
  | some f => h f p
  | none => p.refuse .notFitted

/-- The channel named at an offset, else BAD_FIELD. -/
def Part.atChannel (payload : List Byte) (i : Nat) (h : ChannelIx → Part → Answer) (p : Part) : Answer :=
  match finOf 32 (byteAt payload i) with
  | some c => h c p
  | none => p.refuse .badField

/-! ## Runs (sections 1.2 and 1.3) -/

/-- The fields of OPEN_RUN as the run record takes them (R7, check 2). -/
def parseOpenRun (payload : List Byte) (now : BitVec 32) : Option Run := do
  let policy ← policyOf (byteAt payload 1)
  let priority ← finOf 4 (byteAt payload 2)
  let rate ← busRateOf (byteAt payload 3)
  need (byteAt payload 8 ≤ 24)
  return { state := .active, runId := BitVec.ofNat 32 (u32At payload 4), label := (payload.drop 9).take (byteAt payload 8)
           policy := policy, priority := priority, busRate := rate, openedAt := now }

/-- A watch entry with its capture clear (section 6.5). -/
def Watch.cleared (w : Watch) : Watch :=
  { enabled := w.enabled, extended := w.extended, id := w.id, mask := w.mask }

/-- A run opens (R7). Its port takes part in the bus from the next frame start, so that an attempt still running out of an earlier
run is none of its own (R112; log 36). -/
def Part.openAs (f : FixtureIx) (u : Run) (p : Part) : Part :=
  ((p.outputDefaults f).modFx f fun x =>
    { x with run := u, queue := [], stalled := false, log := []
             port := { x.port with state := .active, queue := [], attempt := .none }
             watch := mapEntries Watch.cleared x.watch }).postRunState f

/-- The first condition of R7, from order 3 on, that fails. -/
def Part.openRefusal (p : Part) (f : FixtureIx) : Option ResultCode :=
  let x := p.fx f
  if x.run.state ≠ .none then some .wrongState
  else if (p.con (consoleFor f)).stopLevel then some .stopped
  else if x.supply.state = .tripped then some .faultLatched
  else if x.supply.state = .discharge then some .wrongState
  else if !x.sense.presence then some .noUnit
  else if !x.sense.lid then some .lidOpen
  else none

/-- OPEN_RUN (R7). -/
def Part.openRun (payload : List Byte) : Part → Answer :=
  Part.ofLength 33 payload <| Part.atFixture payload 0 fun f p =>
    match parseOpenRun payload p.uptime with
    | none => p.refuse .badField
    | some u =>
      match p.openRefusal f with
      | some c => p.refuse c
      | none => (p.openAs f u).accept (le32 u.openedAt.toNat)

/-- END_RUN (R8, R9). -/
def Part.requestEnd (payload : List Byte) : Part → Answer :=
  Part.ofLength 1 payload <| Part.atFixture payload 0 fun f p =>
    if (p.fx f).run.state = .active then
      (((p.modRun f fun u => { u with state := .closing }).postRunState f).runQueue f).accept []
    else p.refuse .wrongState

/-- ABORT_RUN (R10). -/
def Part.requestAbort (payload : List Byte) : Part → Answer :=
  Part.ofLength 1 payload <| Part.atFixture payload 0 fun f p =>
    if (p.fx f).run.isOpen then (p.haltRequest f .abortRequest).accept []
    else if (p.fx f).run.state = .halting then p.accept []
    else p.refuse .wrongState

/-- CLEAR_RUN (R15). -/
def Part.clearRun (payload : List Byte) : Part → Answer :=
  Part.ofLength 1 payload <| Part.atFixture payload 0 fun f p =>
    if (p.fx f).run.state = .ended then
      (p.modFx f fun x => { x with log := [], run := { x.run with state := .none } }).accept (le8 (p.fx f).log.length)
    else p.refuse .wrongState

/-- The part of FIXTURE_STATUS that reports the run record. -/
def Run.report (u : Run) : List Byte :=
  le8 u.state.code ++ le32 u.runId.toNat ++ le8 u.label.length ++ padTo 24 0 u.label ++ le8 u.policy.code ++ le8 u.priority.val ++
    le8 u.busRate.code ++ le8 u.verdict.code ++ le8 u.haltReason.code ++ le16 u.stepsDone ++ le16 u.skipped ++
    flag u.skipping ++ le32 u.openedAt.toNat ++ le16 u.seq

/-- The part of FIXTURE_STATUS that reports the step in flight. -/
def Part.reportStep (p : Part) : Option InFlight → List Byte
  | none => List.replicate 8 0
  | some i => flag true ++ le16 i.step.tag.toNat ++ le8 i.step.body.kind.code ++ le32 (p.msSince i.startedAt).toNat

/-- The data of a FIXTURE_STATUS reply (R16, section 11.7). -/
def Part.statusOf (p : Part) (f : FixtureIx) : List Byte :=
  let x := p.fx f
  let s := x.sense
  flag s.presence ++ flag s.lid ++ le8 (mechanicalCode s.presence s.lid) ++ flag s.ready ++ flag (p.lidLock f) ++
    x.run.report ++ le8 x.queue.length ++ le8 (32 - x.queue.length) ++ le8 x.log.length ++ flag x.inflight.isSome ++
    p.reportStep x.inflight ++ flag x.stalled ++ le8 x.supply.state.code ++ le8 x.supply.tripReason.code ++
    flag x.supply.residual ++ le8 x.supply.range.code ++ [x.outs.readLevels]

/-- FIXTURE_STATUS (R16). -/
def Part.fixtureStatus (payload : List Byte) : Part → Answer :=
  Part.ofLength 1 payload <| Part.atFixture payload 0 fun f p => p.accept (p.statusOf f)

/-- The steps that enter the queue, and the skipping flag afterwards (R18). -/
def absorb (skipping : Bool) (steps : List Step) : List Step × Bool :=
  if skipping then
    if steps.any Step.isMark then ((steps.dropWhile fun s => !s.isMark).tail, false) else ([], true)
  else (steps, false)

/-- Accepted steps pass to the queue (R18). -/
def Fixture.addSteps (x : Fixture) (steps : List Step) : Fixture :=
  let (kept, skipping) := absorb x.run.skipping steps
  { x with queue := x.queue ++ kept
           run := { x.run with skipping := skipping, skipped := sat16 (x.run.skipped + (steps.length - kept.length)) } }

/-- QUEUE_STEPS from check 4 of R17 on. -/
def Part.queueParsed (f : FixtureIx) (slots : List (List Byte)) (p : Part) : Answer :=
  match parseAll parseStep 0 slots with
  | .error k => p.refuse .badField (le8 k)
  | .ok steps =>
    let x := p.fx f
    let kept := (absorb x.run.skipping steps).1
    let free := 32 - x.queue.length
    if free < kept.length then p.refuse .queueFull (le8 free)
    else
      let q := (p.modFx f fun x => x.addSteps steps).runQueue f
      q.accept (le8 kept.length ++ le8 (steps.length - kept.length) ++ le8 (32 - (q.fx f).queue.length))

/-- QUEUE_STEPS (R17, R178). -/
def Part.queueSteps (payload : List Byte) (p : Part) : Answer :=
  if payload.length < 2 then p.refuse .badLength
  else p.atFixture payload 0 fun f p =>
    let count := byteAt payload 1
    if (p.fx f).run.state ≠ .active then p.refuse .wrongState
    else if count < 1 ∨ 16 < count ∨ payload.length ≠ 2 + 52 * count then p.refuse .badLength
    else p.queueParsed f (pieces 52 count (payload.drop 2))

/-- The presence bits of a result record (section 11.4). -/
def Result.presence (r : Result) : Nat :=
  flagNat r.value.isSome + 2 * flagNat r.unit.isSome + 4 * flagNat r.mean16.isSome + 8 * flagNat r.range.isSome

/-- The 24 bytes of a result record (section 11.4). -/
def Result.encode (r : Result) : List Byte :=
  le16 r.seq ++ le16 r.tag.toNat ++ le8 r.kind.code ++ le8 r.verdict.code ++ le8 r.reason.code ++ le8 r.presence ++
    leInt32 (r.value.getD 0) ++ le8 (r.unit.getD 0) ++ le8 ((r.range.map Range.code).getD 0) ++ le16 (r.mean16.getD 0) ++
    le32 r.elapsed.toNat ++ le32 r.endTime.toNat

/-- READ_RESULTS (R22); the number left is that after the removal (log 34). -/
def Part.readResults (payload : List Byte) : Part → Answer :=
  Part.ofLength 2 payload <| Part.atFixture payload 0 fun f p =>
    let most := byteAt payload 1
    if most < 1 ∨ 16 < most then p.refuse .badField
    else if (p.fx f).run.state = .none then p.refuse .wrongState
    else
      let out := (p.fx f).log.take most
      let left := (p.fx f).log.drop most
      ((p.modFx f fun x => { x with log := left }).runQueue f).accept
        (le8 out.length ++ out.flatMap Result.encode ++ le8 left.length)

/-- A latched trip is released (R67). -/
def Part.releaseTrip (f : FixtureIx) (p : Part) : Part :=
  (((p.enterSupply f .off).modSupply f fun s => { s with tripReason := .none, residual := false }).removeSafety
    f).postSupplyEvent f .cleared

/-- CLEAR_FAULT (R67). -/
def Part.clearFault (payload : List Byte) : Part → Answer :=
  Part.ofLength 1 payload <| Part.atFixture payload 0 fun f p =>
    let s := (p.fx f).supply
    if s.state = .tripped then
      if s.residual && !s.below500 then p.refuse .wrongState (le8 s.state.code)
      else
        let q := p.releaseTrip f
        q.accept (le8 (q.fx f).supply.state.code)
    else (p.removeSafety f).accept (le8 s.state.code)

/-! ## Channels and pattern memory (chapter 4) -/

/-- DEFINE_CHANNEL (R74). -/
def Part.defineChannel (payload : List Byte) : Part → Answer :=
  Part.ofLength 17 payload <| Part.atChannel payload 0 fun c => Part.atFixture payload 1 fun f p =>
    match parseChannelDef f payload with
    | none => p.refuse .badField
    | some d =>
      if (p.ch c).state = .idle ∨ (p.ch c).state = .done then (p.modCh c fun _ => Channel.defined d).accept []
      else p.refuse .wrongState

/-- A channel definition laid out as DEFINE_CHANNEL (section 11.5; log 23). -/
def ChannelDef.encode (d : ChannelDef) (c : ChannelIx) : List Byte :=
  le8 c.val ++ le8 d.fixture.val ++ le8 d.level.val ++ le8 d.mode.code ++ le16 d.repeats ++ le16 d.aStart ++ le16 d.aCount ++
    le16 d.bStart ++ le16 d.bCount ++ [d.firstBank] ++ flag d.unitMs ++ le8 (flagNat d.half + 2 * flagNat d.endNotice)

/-- The data of a READ_CHANNEL reply (R75, section 11.7). -/
def Channel.report (ch : Channel) (c : ChannelIx) : List Byte :=
  flag ch.defn.isSome ++ (ch.defn.map fun d => d.encode c).getD (List.replicate 17 0) ++ le8 ch.state.code ++
    flag (ch.state = .playing && !ch.due) ++ le8 (bankCode ch.bank) ++ le16 ch.position ++ le16 ch.remaining ++
    le16 ch.passes ++ flag ch.readyA ++ flag ch.readyB ++ le8 ch.fault.code

/-- READ_CHANNEL (R75). -/
def Part.readChannel (payload : List Byte) : Part → Answer :=
  Part.ofLength 1 payload <| Part.atChannel payload 0 fun c p => p.accept ((p.ch c).report c)

/-- CLEAR_CHANNEL (R76). -/
def Part.clearChannel (payload : List Byte) : Part → Answer :=
  Part.ofLength 1 payload <| Part.atChannel payload 0 fun c p =>
    if (p.ch c).state = .faulted then (p.modCh c fun ch => { ch with state := .idle, fault := .none }).accept []
    else p.refuse .wrongState

/-- A mark takes effect: it resumes a channel that waits for the bank, or sets the flag (R84). BANK_FREE of the bank that was left is
posted before any notice of the resumed bank's first record, such as the HALF of a bank of two: an order R87 leaves open (log 39). -/
def Part.markReady (c : ChannelIx) (d : ChannelDef) (bk : Bank) (p : Part) : Part :=
  let ch := p.ch c
  if ch.state = .starved ∧ ch.awaited d = bk then
    let q := p.modCh c fun ch => (ch.enter d bk).setReady bk false
    (match ch.bank with
     | some old => q.postChannel c .bankFree (some old)
     | none => q).tryGrant
  else p.modCh c fun ch => ch.setReady bk true

/-- MARK_BANK_READY (R84). -/
def Part.markBankReady (payload : List Byte) : Part → Answer :=
  Part.ofLength 2 payload <| Part.atChannel payload 0 fun c p =>
    match bankOf (byteAt payload 1), (p.ch c).defn with
    | none, _ => p.refuse .badField
    | some _, none => p.refuse .wrongState
    | some bk, some d =>
      if d.mode ≠ .pingpong then p.refuse .wrongState
      else if (p.ch c).state = .playing ∧ (p.ch c).bank = some bk then p.refuse .inUse
      else
        let q := p.markReady c d bk
        q.accept (flag ((q.ch c).ready bk) ++ le8 (q.ch c).state.code)

/-- A stimulus record of 16 bytes, if it is well-formed (R89). -/
def goodRecord (r : List Byte) : Option (List Byte) := if recordOk r then some r else none

/-- WRITE_PATTERN (R90). -/
def Part.writePattern (payload : List Byte) (p : Part) : Answer :=
  let first := u16At payload 0
  let count := byteAt payload 2
  if payload.length < 3 ∨ count < 1 ∨ 64 < count ∨ payload.length ≠ 3 + 16 * count then p.refuse .badLength
  else if 16383 < first ∨ 16383 < first + count - 1 then p.refuse .badField
  else match parseAll goodRecord 0 (pieces 16 count (payload.drop 3)) with
    | .error k => p.refuse .badField (le8 k)
    | .ok _ =>
      match p.protector first count with
      | some c => p.refuse .inUse (le8 c.val)
      | none => { p with pattern := Pattern.writeAll p.pattern (16 * first) (payload.drop 3) }.accept []

/-- READ_PATTERN (R92). -/
def Part.readPattern (payload : List Byte) : Part → Answer :=
  Part.ofLength 3 payload fun p =>
    let first := u16At payload 0
    let count := byteAt payload 2
    if count < 1 ∨ 64 < count ∨ 16383 < first then p.refuse .badField
    else
      let n := min count (16384 - first)
      p.accept (le8 n ++ (List.range n).flatMap fun k => Pattern.slot p.pattern (first + k))

/-! ## Watch table and probes (section 6.5, section 7.1) -/

/-- A step that waits on an entry hears that it has been disabled (R118). -/
def Part.watchChanged (f : FixtureIx) (e : Fin 8) (p : Part) : Part :=
  let x := p.fx f
  if x.watchedEntry = some e ∧ (x.watchOf e).enabled = false then
    match x.inflight with
    | some i =>
      match i.progress with
      | .frameField _ => p.finish f (.incomplete .undefinedProbe)
      | _ => p.finish f (.incomplete .watchDisabled)
    | none => p
  else p

/-- DEFINE_WATCH (R118). -/
def Part.defineWatch (payload : List Byte) : Part → Answer :=
  Part.ofLength 12 payload <| Part.atFixture payload 0 fun f p =>
    match parseWatch payload with
    | none => p.refuse .badField
    | some (e, w) => ((p.modWatch f e fun _ => w).watchChanged f e).accept []

/-- The data of a READ_WATCH reply (R122, section 11.5). -/
def Fixture.watchReport (x : Fixture) (e : Fin 8) : List Byte :=
  let w := x.watchOf e
  flag w.enabled ++ flag w.extended ++ le32 w.id.toNat ++ le32 w.mask.toNat ++ le16 w.count ++ le8 w.length ++ padTo 8 0 w.data ++
    le32 w.lastTime.toNat ++ flag w.fresh ++ le8 x.port.state.code ++
    le8 (if x.port.state = .inactive then 255 else x.run.busRate.code) ++ le8 x.port.queue.length ++
    le8 ((x.port.queue.head?.map (·.attempts)).getD 255)

/-- READ_WATCH (R122). -/
def Part.readWatch (payload : List Byte) : Part → Answer :=
  Part.ofLength 2 payload <| Part.atFixture payload 0 fun f p =>
    match finOf 8 (byteAt payload 1) with
    | none => p.refuse .badField
    | some e => p.accept ((p.fx f).watchReport e)

/-- A MEASURE on a probe is in flight (R125). -/
def Part.probeInUse (p : Part) (n : ProbeIx) : Bool :=
  allFixtures.any fun f =>
    match (p.fx f).inflight with
    | some i =>
      match i.step.body with
      | .measure k _ _ _ _ _ => k = n
      | _ => false
    | none => false

/-- DEFINE_PROBE (R125). -/
def Part.defineProbe (payload : List Byte) : Part → Answer :=
  Part.ofLength 16 payload fun p =>
    match finOf 128 (byteAt payload 0) with
    | none => p.refuse .badField
    | some n =>
      if byteAt payload 1 < 1 ∨ 3 < byteAt payload 1 then p.refuse .badField
      else p.atFixture payload 2 fun f p =>
        match parseProbe f payload with
        | none => p.refuse .badField
        | some d =>
          if p.probeInUse n then p.refuse .inUse
          else { p with probes := p.probes.set n.val (some d) n.isLt }.accept []

/-- Code of a probe kind (section 11.1). -/
def ProbeBody.kindCode : ProbeBody → Nat
  | .analog .. => 1
  | .timing .. => 2
  | .frameField .. => 3

/-- The fields of a probe's kind as READ_PROBE reports them (R126, R127; log 22). -/
def ProbeBody.encode : ProbeBody → List Byte
  | .analog point settle n low high =>
    let span := pointSpan point low high
    le8 point.val ++ (match settle with | .fixed k => le8 0 ++ le8 k | .ready => le8 1 ++ le8 0) ++ le8 n ++ leInt32 span.1 ++
      leInt32 span.2
  | .timing line q w => padTo 12 0 (le8 line.val ++ le8 q.code ++ le8 w)
  | .frameField e start width signed num den offset =>
    le8 e.val ++ le8 start ++ le8 width ++ flag signed ++ leInt16 num ++ le16 den ++ leInt32 offset

/-- The definition in a READ_PROBE reply, laid out as DEFINE_PROBE (section 11.5). R127 gives 0 for the kind, the fixture, the unit code
and every field of an undefined entry and does not name the number: it is the one asked for, a choice (log 22). -/
def encodeProbe (n : ProbeIx) : Option Probe → List Byte
  | none => padTo 16 0 (le8 n.val)
  | some d => le8 n.val ++ le8 d.body.kindCode ++ le8 d.fixture.val ++ le8 d.unit ++ d.body.encode

/-- READ_PROBE (R127). -/
def Part.readProbe (payload : List Byte) : Part → Answer :=
  Part.ofLength 1 payload fun p =>
    match finOf 128 (byteAt payload 0) with
    | none => p.refuse .badField
    | some n => p.accept (flag (p.probe n).isSome ++ encodeProbe n (p.probe n) ++ flag (p.probeInUse n))

/-! ## Matrix (section 7.5) -/

/-- A lend's time limit in range (R137, R142). -/
def lendMsOk (ms : Nat) : Bool := 100 ≤ ms && ms ≤ 10000

/-- LEND_MATRIX (R137). -/
def Part.lendMatrix (payload : List Byte) : Part → Answer :=
  Part.ofLength 2 payload fun p =>
    let ms := u16At payload 0
    if !lendMsOk ms then p.refuse .badField
    else if p.lend.matrix ≠ .owned then p.refuse .inUse
    else
      let q := p.lendRequest .request ms
      q.accept (le8 q.lend.matrix.code)

/-- RECLAIM_MATRIX (R140). -/
def Part.reclaimMatrix (payload : List Byte) : Part → Answer :=
  Part.ofLength 0 payload fun p =>
    match p.lend.matrix with
    | .owned => p.refuse .wrongState (le8 p.lend.matrix.code)
    | .pending source _ =>
      let q := (p.blockHold source).modLend fun l => { l with matrix := .owned }
      q.accept (le8 q.lend.matrix.code)
    | .lent source _ t =>
      let q := (p.blockHold source).endLend .reclaimed source t
      q.accept (le8 q.lend.matrix.code)

/-- SET_LEND_LIMIT (R142). -/
def Part.setLendLimit (payload : List Byte) : Part → Answer :=
  Part.ofLength 2 payload fun p =>
    let ms := u16At payload 0
    if lendMsOk ms then (p.modLend fun l => { l with holdLimit := ms }).accept (le16 ms) else p.refuse .badField

/-! ## Consoles (section 9.7) -/

/-- CONFIG_CONSOLE (R171). -/
def Part.configConsole (payload : List Byte) : Part → Answer :=
  Part.ofLength 2 payload fun p =>
    match consoleOfCode (byteAt payload 0) with
    | none => p.refuse .badField
    | some c =>
      let t := byteAt payload 1
      if 1 ≤ t ∧ t ≤ 4 then (p.modCon c fun x => { x with longTime := t }).accept (le8 t) else p.refuse .badField

/-- Code of an entry's class. -/
def Entry.classCode (e : Entry) : Nat := if e.isSafety then 0 else 1

/-- The 50 bytes of an entry slot (section 11.7). -/
def Entry.encode (e : Entry) : List Byte :=
  le8 e.owner.val ++ le8 e.classCode ++
    (match e.cls with
     | .safety => le8 0 ++ le8 e.text.length ++ le16 0 ++ le32 0
     | .normal kind tag runId => le8 kind.code ++ le8 e.text.length ++ le16 tag.toNat ++ le32 runId.toNat) ++
    padTo 40 0 e.text

/-- The header of a display: shown, fixture number, letter. -/
def Console.headerBytes (c : Console) : List Byte :=
  match c.display.1 with
  | none => [0, 0, 0]
  | some (f, letter) => le8 1 ++ le8 f.val ++ [letter]

/-- The 5 bytes of a button field (section 11.7). -/
def Console.buttonBytes (c : Console) (k : Button) : List Byte :=
  let b := c.button k
  match b.press with
  | none => flag b.down ++ [0, 0, 0, 0]
  | some r =>
    flag b.down ++ le8 r.phase.code ++
      (match r.bound, c.boundEntry r with
       | none, _ => [0, 0, 0]
       | some _, none => le8 2 ++ [0, 0]
       | some _, some e => le8 1 ++ le8 e.owner.val ++ le8 e.classCode)

/-- Code of a lamp state (section 11.1). -/
def Lamp.code : Lamp → Nat
  | .off => 0 | .steady => 1 | .slowFlash => 2 | .fastFlash => 3

/-- The three bytes of a fixture's lamps. -/
def Part.lampBytes (p : Part) (f : FixtureIx) : List Byte :=
  le8 (p.lamps f).1.code ++ le8 (p.lamps f).2.1.code ++ le8 (p.lamps f).2.2.code

/-- The data of a CONSOLE_STATUS reply (R172, section 11.7). -/
def Part.consoleReport (p : Part) (k : ConsoleId) : List Byte :=
  let c := p.con k
  le8 c.longTime ++ le8 c.entries.length ++ padTo 400 0 (c.entries.flatMap Entry.encode) ++ c.headerBytes ++ c.display.2.1 ++
    c.display.2.2 ++ c.buttonBytes .pass ++ c.buttonBytes .fail ++ flag c.stopLevel ++ (servedBy k).flatMap p.lampBytes

/-- CONSOLE_STATUS (R172). -/
def Part.consoleStatus (payload : List Byte) : Part → Answer :=
  Part.ofLength 1 payload fun p =>
    match consoleOfCode (byteAt payload 0) with
    | none => p.refuse .badField
    | some c => p.accept (p.consoleReport c)

/-! ## The part (section 10.5) -/

/-- The data of an IDENTIFY reply (R182, section 11.7). -/
def Part.identity (p : Part) : List Byte :=
  le16 0x4A50 ++ chars ['W', '8', 'C'] ++ le8 1 ++ le32 (rateBps p.rate) ++ le8 (fittedCount p.fitted) ++
    le8 (2 ^ fittedCount p.fitted - 1) ++ le8 p.cause.code

/-- IDENTIFY (R182). -/
def Part.identify (payload : List Byte) : Part → Answer := Part.ofLength 0 payload fun p => p.accept p.identity

/-- The source of a present or pending lend as its code, 0 when OWNED. -/
def Matrix.sourceCode : Matrix → Nat
  | .owned => 0
  | .pending s _ => s.code
  | .lent s _ _ => s.code

/-- The data of a PART_STATUS reply (R183, section 11.7). -/
def Part.statusData (p : Part) : List Byte :=
  le8 p.rack.level.code ++ flag p.conv.refFault ++ le16 p.conv.cref ++ le8 p.lend.matrix.code ++ le8 p.lend.matrix.sourceCode ++
    le16 p.lend.holdLimit ++ (allFixtures.flatMap fun f => le8 (p.fx f).run.state.code) ++ le32 p.uptime.toNat ++
    le8 p.link.silenceTimeout ++ flag p.link.noticesLost

/-- PART_STATUS (R183). -/
def Part.partStatus (payload : List Byte) : Part → Answer :=
  Part.ofLength 0 payload fun p => (p.modLink fun l => { l with noticesLost := false }).accept p.statusData

/-- SET_LINK (R184). -/
def Part.setLink (payload : List Byte) : Part → Answer :=
  Part.ofLength 1 payload fun p =>
    let t := byteAt payload 0
    if 60 < t then p.refuse .badField else (p.modLink fun l => { l with silenceTimeout := t }).accept (le8 t)

/-- RESET_PART (R185). -/
def Part.resetRequest (payload : List Byte) : Part → Answer :=
  Part.ofLength 0 payload fun p => (p.modLink fun l => { l with resetPending := true }).accept []

/-- A request is handled by the block that owns it; a type outside the index gives UNKNOWN_REQUEST (R178). -/
def Part.dispatch (fr : Frame) (p : Part) : Answer :=
  match fr.ty.toNat with
  | 0x01 => p.identify fr.payload
  | 0x02 => p.partStatus fr.payload
  | 0x03 => p.setLink fr.payload
  | 0x04 => p.resetRequest fr.payload
  | 0x10 => p.openRun fr.payload
  | 0x11 => p.requestEnd fr.payload
  | 0x12 => p.requestAbort fr.payload
  | 0x13 => p.clearRun fr.payload
  | 0x14 => p.fixtureStatus fr.payload
  | 0x15 => p.queueSteps fr.payload
  | 0x16 => p.readResults fr.payload
  | 0x20 => p.clearFault fr.payload
  | 0x30 => p.defineChannel fr.payload
  | 0x31 => p.readChannel fr.payload
  | 0x32 => p.clearChannel fr.payload
  | 0x33 => p.markBankReady fr.payload
  | 0x34 => p.writePattern fr.payload
  | 0x35 => p.readPattern fr.payload
  | 0x40 => p.defineWatch fr.payload
  | 0x41 => p.readWatch fr.payload
  | 0x50 => p.defineProbe fr.payload
  | 0x51 => p.readProbe fr.payload
  | 0x52 => p.lendMatrix fr.payload
  | 0x53 => p.reclaimMatrix fr.payload
  | 0x54 => p.setLendLimit fr.payload
  | 0x60 => p.configConsole fr.payload
  | 0x61 => p.consoleStatus fr.payload
  | _ => p.refuse .unknownRequest

end Sys2Proof.Machine
end

