-- ==== Sys2Proof/Machine/Resets.lean ====
section
/-! DEFINITION. The three resets and the time the part is held in reset (R186, R187, and each block's own reset rule). A pin
keeps its level through a reset, and so does the index of the free values (log 27, 30). -/

namespace Sys2Proof.Machine

open Sys2Proof

/-- A fixture's switches at a release: the debounced levels are loaded (R2). -/
def Sense.released (s : Sense) : Sense :=
  { rawPresence := s.rawPresence, rawLid := s.rawLid, presence := s.rawPresence, lid := s.rawLid, ready := s.ready }

/-- A fixture's switches at the release of a reset: an unfitted fixture senses nothing (R2). -/
def Sense.atRelease (s : Sense) (fitted : Bool) : Sense :=
  if fitted then s.released else { s.released with presence := false, lid := false }

/-- A button at a release: held over if it is down (R173). R173 gives the record's phase and its empty binding; its long time of 2 s
and its down_at of 0 are choices (log 35). -/
def ButtonState.released (b : ButtonState) : ButtonState :=
  { down := b.down
    press := if b.down then some { phase := .cancelled, bound := none, longTime := 2, downAt := 0 } else none }

/-- A console at the release of a power-on or brownout reset (R173). -/
def Console.released (c : Console) : Console :=
  { pass := c.pass.released, fail := c.fail.released, stopRaw := c.stopRaw, stopLevel := c.stopRaw }

/-- A console at a command reset: the STOP level is kept and its debounce goes on (R173). -/
def Console.commandReset (c : Console) (now : Nat) : Console :=
  { pass := c.pass.released, fail := c.fail.released, stopRaw := c.stopRaw, stopLevel := c.stopLevel
    stopDue := c.stopDue.map fun t => t - now, stopAfter := c.stopAfter.map fun t => t - now }

/-- The lend state at a release (R143). -/
def Lend.released (l : Lend) : Lend := { holdLine := l.holdLine, holdBlocked := l.holdLine }

/-- A fixture at the release of a power-on or brownout reset (R2, R5, R52, R97, R123). -/
def Fixture.released (x : Fixture) (fitted : Bool) : Fixture :=
  { sense := x.sense.atRelease fitted, supply := { below500 := x.supply.below500 }, outs := { pins := x.outs.pins } }

/-- A function of the fixture's number on every fixture. -/
def Part.allFx (p : Part) (g : FixtureIx → Fixture → Fixture) : Part :=
  p.each allFixtures fun f q => q.modFx f (g f)

/-- The release of a power-on or brownout reset: the straps are latched, every block takes its power-on values, and READY is
on its way (R186, R187). -/
def Part.released (cause : ResetCause) (rate : LinkRate) (fitted : FittedCount) (p : Part) : Part :=
  ({ freeIndex := p.freeIndex, rate := rate, fitted := fitted, cause := cause, fixtures := p.fixtures
     lend := p.lend.released, rack := { mv := p.rack.mv, level := RackLevel.loaded p.rack.mv }
     consoleA := p.consoleA.released, consoleB := p.consoleB.released
     link := { tx := .sending (.notice (.ready cause)) } : Part }).allFx fun f x => x.released (f.val < fittedCount fitted)

/-- A supply at a command reset (R52). -/
def Supply.commandReset (s : Supply) (fitted : Bool) : Supply :=
  { state := if s.below500 || !fitted then .off else .discharge, below500 := s.below500 }

/-- A fixture at a command reset (R2, R5, R52, R97, R123). -/
def Fixture.commandReset (x : Fixture) (fitted : Bool) : Fixture :=
  { sense := x.sense.atRelease fitted, supply := x.supply.commandReset fitted, outs := { pins := x.outs.pins }
    watch := mapEntries Watch.cleared x.watch }

/-- A channel at a command reset: its definition is kept (R77). -/
def Channel.commandReset (ch : Channel) : Channel :=
  match ch.defn with
  | none => {}
  | some d => Channel.defined d

/-- A command reset: the straps, the rack level, pattern memory and the definitions are kept (R52, R77, R88, R123, R124, R143,
R173, R187). -/
def Part.commandReset (p : Part) : Part :=
  ({ freeIndex := p.freeIndex, rate := p.rate, fitted := p.fitted, cause := .command, fixtures := p.fixtures
     channels := mapEntries Channel.commandReset p.channels, pattern := p.pattern, probes := p.probes
     lend := p.lend.released, rack := p.rack
     consoleA := p.consoleA.commandReset p.clock, consoleB := p.consoleB.commandReset p.clock
     link := { tx := .sending (.notice (.ready .command)) } : Part }).allFx fun f x => x.commandReset (p.isFitted f)

/-- A console held in reset: only its pins remain (R186). -/
def Console.held (c : Console) : Console := { pass := { down := c.pass.down }, fail := { down := c.fail.down }, stopRaw := c.stopRaw }

/-- A fixture held in reset: only its pins remain (R186). -/
def Fixture.held (x : Fixture) : Fixture :=
  { sense := { rawPresence := x.sense.rawPresence, rawLid := x.sense.rawLid, ready := x.sense.ready }
    supply := { below500 := x.supply.below500 }, outs := { pins := x.outs.pins } }

/-- The logic supply is lost: the part holds reset with its outputs at their reset levels, its state lost (R186). -/
def Part.heldInReset (p : Part) : Part :=
  ({ powered := false, freeIndex := p.freeIndex, rate := p.rate, fitted := p.fitted, cause := p.cause, fixtures := p.fixtures
     conv := { reference := none, burst := none }, lend := { holdLine := p.lend.holdLine }
     rack := { mv := p.rack.mv }, consoleA := p.consoleA.held, consoleB := p.consoleB.held, link := { tx := .free } : Part }).allFx
    fun _ x => x.held

end Sys2Proof.Machine
end

