-- ==== Sys2Proof/Machine/Link.lean ====
section
/-! DEFINITION. The link port (chapter 10): the receiver, the frame buffer and reply slot, the transmitter, the silence timer,
and what passes with no command (log 1, 3). -/

namespace Sys2Proof.Machine

open Sys2Proof

/-! ## Handling (R177 to R179) -/

/-- The frame of a reply (R178). -/
def Frame.replyWith (fr : Frame) (payload : List Byte) : Frame := { ty := fr.ty + 0x80, tag := fr.tag, payload := payload }

/-- A request is handled: the slot counts as taken while the block acts, so that the reply goes before the notices of the
event (R178, R179). -/
def Part.handle (fr : Frame) (p : Part) : Part :=
  let (q, payload) := (p.modLink fun l => { l with reply := some (fr.replyWith []) }).dispatch fr
  q.modLink fun l => { l with reply := some (fr.replyWith payload) }

/-- A request that waits in the frame buffer is handled once the slot is free (R177, R179). -/
def Part.handleWaiting (p : Part) : Part :=
  match p.link.frameBuf with
  | none => p
  | some fr => if p.link.resetPending then p else (p.modLink fun l => { l with frameBuf := none }).handle fr

/-- The transmitter takes the waiting reply, else the oldest notice, else becomes FREE (R179). -/
def Part.takeNext (p : Part) : Part :=
  match p.link.reply with
  | some fr => (p.modLink fun l => { l with tx := .sending (.reply fr), reply := none }).handleWaiting
  | none =>
    p.modLink fun l =>
      match l.notices with
      | n :: rest => { l with tx := .sending (.notice n), notices := rest }
      | [] => { l with tx := .free }

/-- The transmitter takes up what is offered while it is FREE (R179). -/
def Part.pump (p : Part) : Part := if p.link.tx = .free then p.takeNext else p

/-- A good request is taken into the frame buffer, or dropped (R177). -/
def Part.takeRequest (fr : Frame) (p : Part) : Part :=
  if p.link.resetPending || p.link.frameBuf.isSome then p
  else if p.link.reply.isSome then p.modLink fun l => { l with frameBuf := some fr }
  else (p.handle fr).pump

/-- The receiver is in HUNT with its buffer empty (R175). -/
def Link.hunt (l : Link) : Link := { l with rx := .hunt, rxBuf := [] }

/-- The end of a good frame: the silence timer restarts (R175, R181). -/
def Part.frameHeard (p : Part) : Part := p.modLink fun l => { l.hunt with silenceFrom := some p.clock }

/-- A good frame, whole (R175, R177). -/
def Part.goodFrame (fr : Frame) (p : Part) : Part :=
  if 0x70 ≤ fr.ty.toNat then p.frameHeard else p.frameHeard.takeRequest fr

/-- A good request that is dropped, the frame buffer being occupied or a reset pending (R177). -/
def Part.droppedRequest (fr : Frame) (p : Part) : Part :=
  if fr.ty.toNat < 0x70 ∧ (p.link.resetPending = true ∨ p.link.frameBuf.isSome = true) then p.frameHeard else p

/-- The frame going out is the reply for which a reset is pending (R185). -/
def Link.resetDue (l : Link) : Bool :=
  match l.tx with
  | .sending (.reply fr) => l.resetPending && fr.ty == 0x84 && fr.payload == [0]
  | _ => false

/-- The last stop bit of a frame the part sends (R179, R185). -/
def Part.frameOut (p : Part) : Part :=
  match p.link.tx with
  | .free => p
  | .sending _ => if p.link.resetDue then p.commandReset else p.takeNext

/-! ## Receiver (R175, R176) -/

/-- A byte in HUNT: 9Eh begins a frame, any other is ignored (R175). -/
def Link.hunted (l : Link) (b : Byte) : Link := if b = 0x9E then { l with rx := .header, rxBuf := [] } else l

/-- A length above 1,200 abandons the frame, and both length bytes are examined in HUNT (R176). A 9Eh that is the low one begins
a frame of which the high one is the first header byte. -/
def Link.reexamine (l : Link) (low high : Byte) : Link :=
  if low = 0x9E then { l with rx := .header, rxBuf := [high] } else l.hunt.hunted high

/-- A header byte (R175, R176). The buffer holds the bytes after the start byte. -/
def Link.headerByte (l : Link) (b : Byte) : Link :=
  let buf := l.rxBuf ++ [b]
  if buf.length = 2 ∧ 1200 < u16At buf 0 then l.reexamine (buf.getD 0 0) (buf.getD 1 0)
  else if buf.length = 4 then { l with rx := if u16At buf 0 = 0 then .check else .body, rxBuf := buf }
  else { l with rxBuf := buf }

/-- A payload byte (R175). -/
def Link.bodyByte (l : Link) (b : Byte) : Link :=
  let buf := l.rxBuf ++ [b]
  { l with rx := if buf.length = 4 + u16At buf 0 then .check else .body, rxBuf := buf }

/-- The frame a full buffer holds, if its check agrees (R174, R175). -/
def checkedFrame (buf : List Byte) : Option Frame :=
  let n := u16At buf 0
  let covered := buf.take (4 + n)
  let check := 256 * byteAt buf (4 + n) + byteAt buf (5 + n)
  if (crc16 covered).toNat = check then
    some { ty := buf.getD 2 0, tag := buf.getD 3 0, payload := covered.drop 4 }
  else none

/-- A check byte: the second one decides the frame (R175). -/
def Part.checkByte (b : Byte) (p : Part) : Part :=
  let buf := p.link.rxBuf ++ [b]
  if buf.length = 6 + u16At buf 0 then
    let q := p.modLink Link.hunt
    match checkedFrame buf with
    | some fr => q.goodFrame fr
    | none => q
  else p.modLink fun l => { l with rxBuf := buf }

/-- A byte is received (R175). -/
def Part.byteIn (b : Byte) (p : Part) : Part :=
  let p := p.modLink fun l => { l with lastByteAt := p.clock }
  match p.link.rx with
  | .hunt => p.modLink fun l => l.hunted b
  | .header => p.modLink fun l => l.headerByte b
  | .body => p.modLink fun l => l.bodyByte b
  | .check => p.checkByte b

/-- A gap of more than 5 ms inside a frame (R176). -/
def Part.gapOver (p : Part) : Part :=
  if p.link.rx = .hunt then p else (p.advanceTo (p.link.lastByteAt + 5000)).modLink Link.hunt

/-- A header gives a length above 1,200 (R176). -/
def Part.longHeader (low high : Byte) (p : Part) : Part :=
  if 1200 < low.toNat + 256 * high.toNat then p.modLink fun l => { l.reexamine low high with lastByteAt := p.clock } else p

/-! ## Silence (R181) -/

/-- When the silence timer expires. -/
def Link.silenceAt (l : Link) : Option Nat :=
  match l.silenceFrom with
  | some t => if l.silenceTimeout = 0 then none else some (t + l.silenceTimeout * 1000000)
  | none => none

/-- A run is ACTIVE, CLOSING or HALTING. -/
def Run.unfinished (u : Run) : Bool := u.isOpen || u.state = .halting

/-- The silence timer expires (R181). -/
def Part.silenceOver (p : Part) : Part :=
  match p.link.silenceAt with
  | none => p
  | some t =>
    let p := p.advanceTo t
    let p := if allFixtures.any fun f => (p.fx f).run.unfinished then
        p.each allFixtures fun f q => q.haltRequest f .linkLost
      else p
    p.modLink fun l => { l with silenceFrom := none }

end Sys2Proof.Machine
end

