-- ==== Sys2Proof/Machine/Clock.lean ====
section
/-! DEFINITION. The commands that the part's own timers give (log 1 to 3): which of them are due, in a fixed order. The end of a
frame on the serial line or on a bus, a byte and its gap, a burst's codes and a pin are the outside's (log 16, 17). -/

namespace Sys2Proof.Machine

open Sys2Proof

/-- A timer with the command its expiry is: absent when it does not run. -/
abbrev Timer := Option Nat × Instr

/-- The timers of a fixture (R1, R26, R33, R39, R59, R61, R63, R99, R103, R111). -/
def Part.fixtureTimers (p : Part) (f : FixtureIx) : List Timer :=
  let x := p.fx f
  let supply (st : SupplyState) : Option Nat := if x.supply.state = st then x.supply.timerAt else none
  [(x.sense.lidDue, .fixtureSenseDebounced f .lid), (x.sense.presenceAt, .fixtureSenseDebounced f .presence),
   (supply .ramp, .rampTimerExpiry f), (supply .limit, .limitTimerExpiry f), (supply .discharge, .dischargeTimerExpiry f),
   (x.outs.periodAt, .periodStart f), (x.outs.phaseAt, .phaseBoundary f), (p.overflowAt f, .captureOverflow f),
   (x.waitUntil, .waitExpiry f), (x.readingAt, .quiescentReadingDue f), (x.timeoutAt, .stepTimeout f)]

/-- The clock from which a READY wait with its input ready is met (R133). -/
def Part.readyAt (p : Part) : Timer :=
  match p.conv.readyWait with
  | some (f, g) => (if (p.fx f).sense.ready then some (g + 100) else none, .senseReadyChange f true)
  | none => (none, .readyWaitExpiry)

/-- The timers of the converter and the matrix (R132 to R134, R141). -/
def Part.converterTimers (p : Part) : List Timer :=
  [(p.conv.settleAt, .settleEnd), p.readyAt, (p.conv.readyWait.map fun w => w.2 + 50000, .readyWaitExpiry),
   (some p.conv.refDue, .referenceTimer), (p.lend.limitAt, .lendLimitExpiry)]

/-- The timers of a button (R162, R164). -/
def Part.buttonTimers (p : Part) (c : ConsoleId) (k : Button) : List Timer :=
  [(((p.con c).pressIn k .qualifying).map fun r => r.downAt + 60000, .pressHeld c k),
   (((p.con c).pressIn k .held).map fun r => r.downAt + r.longTime * 1000000, .longTimeReached c k)]

/-- The timers of a console (R162, R164, R167). -/
def Part.consoleTimers (p : Part) (c : ConsoleId) : List Timer :=
  p.buttonTimers c .pass ++ p.buttonTimers c .fail ++ [((p.con c).stopDue, .consoleStop c)]

/-- Every timer of the part, in the order in which those due are taken (log 3). -/
def Part.timers (p : Part) : List Timer :=
  [(p.pathBusy, .transferEnd)] ++ (allChannels.map fun c => ((p.ch c).dwellAt, .dwellExpiry c)) ++
    allFixtures.flatMap p.fixtureTimers ++ p.converterTimers ++ p.consoleTimers .a ++ p.consoleTimers .b ++
    [(some p.flash.due, .flashClockPhase), (p.link.silenceAt, .silenceTimeout)]

/-- A timer has reached its time. -/
def Timer.isDue (t : Timer) (now : Nat) : Bool := t.1.any fun at_ => at_ ≤ now

/-- The command of the first timer that is due. -/
def Part.nextDue (p : Part) : Option Instr := (p.timers.find? fun t => Timer.isDue t p.clock).map (·.2)

/-- One microsecond passes. -/
def Part.microsecond (p : Part) : Part := p.advanceTo (p.clock + 1)

/-- An event at a running part; a part held in reset does nothing (R186; log 18). -/
def State.event (h : Part → Part) (s : State) : Host.Outcome State Fault Refusal :=
  .next { s with part := if s.part.powered then h s.part else s.part }

/-- An event at a pin, or of the logic supply, which also reaches a part held in reset (log 18). -/
def State.atPin (h : Part → Part) (s : State) : Host.Outcome State Fault Refusal := .next { s with part := h s.part }

/-- A request's frame arrives whole (R177; log 6). -/
def State.request (ty tag : Byte) (payload : List Byte) (s : State) : Host.Outcome State Fault Refusal :=
  s.event fun p => p.goodFrame { ty := ty, tag := tag, payload := payload }

end Sys2Proof.Machine
end

