-- ==== Sys2Proof/Machine/ExecBus.lean ====
section
/-! DEFINITION. The meanings of the bus ports' commands (chapter 6). Each is
one event, and acts on everything but the queue. -/

namespace Sys2Proof.Machine

open Sys2Proof

/-- DEFINE_WATCH, type 40h (R118). -/
def execDefineWatch (tag : Byte) (payload : List Byte) (s : State) : Host.Outcome State Fault Refusal :=
  s.request 0x40 tag payload

/-- READ_WATCH, type 41h (R122). -/
def execReadWatch (tag : Byte) (payload : List Byte) (s : State) : Host.Outcome State Fault Refusal :=
  s.request 0x41 tag payload

/-- A frame ends on a fixture's bus (R113, R119, R120). -/
def execFrameReceived (f : FixtureIx) (frame : BusFrame) (s : State) : Host.Outcome State Fault Refusal :=
  s.event fun p => p.frameEnds f frame

/-- The bus is idle: an ACTIVE port begins an attempt on its head frame (R115). -/
def execAttemptStart (f : FixtureIx) (s : State) : Host.Outcome State Fault Refusal := s.event fun p => p.attemptBegins f

/-- A transmit attempt ends (R115 to R117). -/
def execAttemptEnd (f : FixtureIx) (outcome : AttemptOutcome) (s : State) : Host.Outcome State Fault Refusal :=
  s.event fun p => p.attemptOver f outcome

end Sys2Proof.Machine
end

