-- ==== Sys2Proof/Machine/ExecChannels.lean ====
section
/-! DEFINITION. The meanings of the commands of the channels, pattern memory and the record arbiter (chapter 4). Each is
one event, and acts on everything but the queue. -/

namespace Sys2Proof.Machine

open Sys2Proof

/-- DEFINE_CHANNEL, type 30h (R74). -/
def execDefineChannel (tag : Byte) (payload : List Byte) (s : State) : Host.Outcome State Fault Refusal :=
  s.request 0x30 tag payload

/-- READ_CHANNEL, type 31h (R75). -/
def execReadChannel (tag : Byte) (payload : List Byte) (s : State) : Host.Outcome State Fault Refusal :=
  s.request 0x31 tag payload

/-- CLEAR_CHANNEL, type 32h (R76). -/
def execClearChannel (tag : Byte) (payload : List Byte) (s : State) : Host.Outcome State Fault Refusal :=
  s.request 0x32 tag payload

/-- MARK_BANK_READY, type 33h (R84). -/
def execMarkBankReady (tag : Byte) (payload : List Byte) (s : State) : Host.Outcome State Fault Refusal :=
  s.request 0x33 tag payload

/-- WRITE_PATTERN, type 34h (R90). -/
def execWritePattern (tag : Byte) (payload : List Byte) (s : State) : Host.Outcome State Fault Refusal :=
  s.request 0x34 tag payload

/-- READ_PATTERN, type 35h (R92). -/
def execReadPattern (tag : Byte) (payload : List Byte) (s : State) : Host.Outcome State Fault Refusal :=
  s.request 0x35 tag payload

/-- The record arbiter grants the most urgent request when the path is free (R94, R95; log 26). -/
def execRecordGrant (s : State) : Host.Outcome State Fault Refusal := s.event Part.tryGrant

/-- The end of the 5 µs transfer time (R94). -/
def execTransferEnd (s : State) : Host.Outcome State Fault Refusal := s.event Part.transferOver

/-- A channel's dwell expires (R79). -/
def execDwellExpiry (c : ChannelIx) (s : State) : Host.Outcome State Fault Refusal := s.event fun p => p.dwellOver c

end Sys2Proof.Machine
end

