-- ==== Sys2Proof/Machine/ExecConsoles.lean ====
section
/-! DEFINITION. The meanings of the consoles' commands (chapter 9). Each is
one event, and acts on everything but the queue. -/

namespace Sys2Proof.Machine

open Sys2Proof

/-- CONFIG_CONSOLE, type 60h (R171). -/
def execConfigConsole (tag : Byte) (payload : List Byte) (s : State) : Host.Outcome State Fault Refusal :=
  s.request 0x60 tag payload

/-- CONSOLE_STATUS, type 61h (R172). -/
def execConsoleStatus (tag : Byte) (payload : List Byte) (s : State) : Host.Outcome State Fault Refusal :=
  s.request 0x61 tag payload

/-- A button goes down (R162, R163). -/
def execButtonDown (c : ConsoleId) (k : Button) (s : State) : Host.Outcome State Fault Refusal :=
  s.atPin fun p => p.buttonGoesDown c k

/-- A press has been down for 60 ms (R162). -/
def execPressHeld (c : ConsoleId) (k : Button) (s : State) : Host.Outcome State Fault Refusal :=
  s.event fun p => p.pressReaches60ms c k

/-- A button goes up (R162 to R165). -/
def execButtonUp (c : ConsoleId) (k : Button) (s : State) : Host.Outcome State Fault Refusal :=
  s.atPin fun p => p.buttonGoesUp c k

/-- A HELD press reaches its long time (R164 to R166). -/
def execLongTimeReached (c : ConsoleId) (k : Button) (s : State) : Host.Outcome State Fault Refusal :=
  s.event fun p => p.pressReachesLongTime c k

/-- A raw change of a STOP switch (R167). -/
def execStopSwitchRawChange (c : ConsoleId) (pressed : Bool) (s : State) : Host.Outcome State Fault Refusal :=
  s.atPin fun p => p.stopRawChange c pressed

/-- A STOP switch's debounce ends (R167, R168). -/
def execConsoleStop (c : ConsoleId) (s : State) : Host.Outcome State Fault Refusal := s.event fun p => p.stopSettled c

/-- The flash clock takes its next phase (R169). -/
def execFlashClockPhase (s : State) : Host.Outcome State Fault Refusal := s.event Part.flashTurns

end Sys2Proof.Machine
end

