-- ==== Sys2Proof/Machine/ExecConverter.lean ====
section
/-! DEFINITION. The meanings of the commands of the probes, the converter and the matrix (chapter 7). Each is
one event, and acts on everything but the queue. -/

namespace Sys2Proof.Machine

open Sys2Proof

/-- DEFINE_PROBE, type 50h (R125). -/
def execDefineProbe (tag : Byte) (payload : List Byte) (s : State) : Host.Outcome State Fault Refusal :=
  s.request 0x50 tag payload

/-- READ_PROBE, type 51h (R127). -/
def execReadProbe (tag : Byte) (payload : List Byte) (s : State) : Host.Outcome State Fault Refusal :=
  s.request 0x51 tag payload

/-- LEND_MATRIX, type 52h (R137). -/
def execLendMatrix (tag : Byte) (payload : List Byte) (s : State) : Host.Outcome State Fault Refusal :=
  s.request 0x52 tag payload

/-- RECLAIM_MATRIX, type 53h (R140). -/
def execReclaimMatrix (tag : Byte) (payload : List Byte) (s : State) : Host.Outcome State Fault Refusal :=
  s.request 0x53 tag payload

/-- SET_LEND_LIMIT, type 54h (R142). -/
def execSetLendLimit (tag : Byte) (payload : List Byte) (s : State) : Host.Outcome State Fault Refusal :=
  s.request 0x54 tag payload

/-- The converter grants a burst when it is FREE, the matrix OWNED and a request waits (R129; log 26). -/
def execBurstGrant (s : State) : Host.Outcome State Fault Refusal := s.event Part.tryBurst

/-- A fixed settle ends (R132). -/
def execSettleEnd (s : State) : Host.Outcome State Fault Refusal := s.event Part.settleOver

/-- A fixture's sense-ready input is at a level (R133). -/
def execSenseReadyChange (f : FixtureIx) (ready : Bool) (s : State) : Host.Outcome State Fault Refusal :=
  s.atPin fun p => p.senseReady f ready

/-- A READY wait fails 50 ms after its grant (R133). -/
def execReadyWaitExpiry (s : State) : Host.Outcome State Fault Refusal := s.event Part.readyOver

/-- A burst's last sample has been taken (R130). -/
def execBurstEnd (codes : Codes) (s : State) : Host.Outcome State Fault Refusal := s.event fun p => p.burstOver codes

/-- The 1,000 ms reference timer expires (R134). -/
def execReferenceTimer (s : State) : Host.Outcome State Fault Refusal := s.event Part.referenceOver

/-- The hold line rises (R136). -/
def execHoldLineRise (s : State) : Host.Outcome State Fault Refusal := s.atPin Part.holdRises

/-- The hold line drops (R136). -/
def execHoldLineDrop (s : State) : Host.Outcome State Fault Refusal := s.atPin Part.holdDrops

/-- A pending lend is granted when no burst is in progress (R138; log 26). -/
def execLendGrant (s : State) : Host.Outcome State Fault Refusal := s.event Part.lendGranted

/-- A lend's limit timer expires (R141). -/
def execLendLimitExpiry (s : State) : Host.Outcome State Fault Refusal := s.event Part.lendOverruns

end Sys2Proof.Machine
end

