-- ==== Sys2Proof/Machine/ExecLink.lean ====
section
/-! DEFINITION. The meanings of the link port's commands and of the resets (chapter 10). Each is
one event, and acts on everything but the queue. -/

namespace Sys2Proof.Machine

open Sys2Proof

/-- IDENTIFY, type 01h (R182). -/
def execIdentify (tag : Byte) (payload : List Byte) (s : State) : Host.Outcome State Fault Refusal :=
  s.request 0x01 tag payload

/-- PART_STATUS, type 02h (R183). -/
def execPartStatus (tag : Byte) (payload : List Byte) (s : State) : Host.Outcome State Fault Refusal :=
  s.request 0x02 tag payload

/-- SET_LINK, type 03h (R184). -/
def execSetLink (tag : Byte) (payload : List Byte) (s : State) : Host.Outcome State Fault Refusal :=
  s.request 0x03 tag payload

/-- RESET_PART, type 04h (R185). -/
def execResetPart (tag : Byte) (payload : List Byte) (s : State) : Host.Outcome State Fault Refusal :=
  s.request 0x04 tag payload

/-- A good frame whose type is no request of the index is answered UNKNOWN_REQUEST (R178). -/
def execUnknownRequest (ty tag : Byte) (payload : List Byte) (s : State) : Host.Outcome State Fault Refusal :=
  s.event fun p => p.goodFrame { ty := ty, tag := tag, payload := payload }

/-- A good frame of type 70h or above is dropped and restarts the silence timer (R177). -/
def execNonRequestFrame (ty tag : Byte) (payload : List Byte) (s : State) : Host.Outcome State Fault Refusal :=
  s.event fun p => p.goodFrame { ty := ty, tag := tag, payload := payload }

/-- A good request that finds the frame buffer occupied or a reset pending is dropped (R177). -/
def execRequestDropped (ty tag : Byte) (payload : List Byte) (s : State) : Host.Outcome State Fault Refusal :=
  s.event fun p => p.droppedRequest { ty := ty, tag := tag, payload := payload }

/-- A frame whose check disagrees is dropped; the receiver returns to HUNT (R175). -/
def execFrameCheckFailed (s : State) : Host.Outcome State Fault Refusal := s.event fun p => p.modLink Link.hunt

/-- A header length above 1,200 abandons the frame and its length bytes are re-examined (R176). -/
def execLengthAbove1200 (low high : Byte) (s : State) : Host.Outcome State Fault Refusal :=
  s.event fun p => p.longHeader low high

/-- A gap of more than 5 ms inside a frame abandons it (R176). -/
def execReceiveGapExpiry (s : State) : Host.Outcome State Fault Refusal := s.event Part.gapOver

/-- A byte with a low stop bit abandons the frame under assembly, and is ignored in HUNT (R176). -/
def execFramingError (s : State) : Host.Outcome State Fault Refusal := s.event fun p => p.modLink Link.hunt

/-- A FREE transmitter takes up a waiting reply, or else the oldest notice (R179). -/
def execTransmitStart (s : State) : Host.Outcome State Fault Refusal := s.event Part.pump

/-- The last stop bit of an outgoing frame: the next is taken up, or a pending command reset takes place (R179, R185). -/
def execFrameSent (s : State) : Host.Outcome State Fault Refusal := s.event Part.frameOut

/-- The silence timer expires (R181). -/
def execSilenceTimeout (s : State) : Host.Outcome State Fault Refusal := s.event Part.silenceOver

/-- The release of a power-on reset (R186, R187). -/
def execPowerOn (rate : LinkRate) (fitted : FittedCount) (s : State) : Host.Outcome State Fault Refusal :=
  s.atPin fun p => p.released .powerOn rate fitted

/-- The release of a brownout reset (R186, R187). -/
def execBrownout (rate : LinkRate) (fitted : FittedCount) (s : State) : Host.Outcome State Fault Refusal :=
  s.atPin fun p => p.released .brownout rate fitted

/-- A byte arrives at the receiver (R175). -/
def execByteReceived (b : Byte) (s : State) : Host.Outcome State Fault Refusal := s.event fun p => p.byteIn b

/-- The logic supply falls below its reset level: the part holds reset (R186). -/
def execLogicSupplyLoss (s : State) : Host.Outcome State Fault Refusal := s.atPin Part.heldInReset

end Sys2Proof.Machine
end

