-- ==== Sys2Proof/Machine/ExecOutputs.lean ====
section
/-! DEFINITION. The meanings of the commands of the outputs, the lines and the capture unit (chapter 5). Each is
one event, and acts on everything but the queue. -/

namespace Sys2Proof.Machine

open Sys2Proof

/-- A dimmer period starts (R99). -/
def execPeriodStart (f : FixtureIx) (s : State) : Host.Outcome State Fault Refusal := s.event fun p => p.periodStarts f

/-- A pulse phase ends (R103). -/
def execPhaseBoundary (f : FixtureIx) (s : State) : Host.Outcome State Fault Refusal := s.event fun p => p.phaseEnds f

/-- A line's pin takes a level (R108). -/
def execLineLevelChange (f : FixtureIx) (line : LineIx) (level : Bool) (s : State) : Host.Outcome State Fault Refusal :=
  s.atPin fun p => p.lineLevel f line level

/-- T would pass 16,000,000 µs (R111). -/
def execCaptureOverflow (f : FixtureIx) (s : State) : Host.Outcome State Fault Refusal := s.event fun p => p.overflows f

end Sys2Proof.Machine
end

