-- ==== Sys2Proof/Machine/ExecRuns.lean ====
section
/-! DEFINITION. The meanings of the run requests and of a fixture's switches and steps (chapters 1 and 2). Each is
one event, and acts on everything but the queue. -/

namespace Sys2Proof.Machine

open Sys2Proof

/-- OPEN_RUN, type 10h (R7). -/
def execOpenRun (tag : Byte) (payload : List Byte) (s : State) : Host.Outcome State Fault Refusal :=
  s.request 0x10 tag payload

/-- END_RUN, type 11h (R8, R9). -/
def execEndRun (tag : Byte) (payload : List Byte) (s : State) : Host.Outcome State Fault Refusal :=
  s.request 0x11 tag payload

/-- ABORT_RUN, type 12h (R10). -/
def execAbortRun (tag : Byte) (payload : List Byte) (s : State) : Host.Outcome State Fault Refusal :=
  s.request 0x12 tag payload

/-- CLEAR_RUN, type 13h (R15). -/
def execClearRun (tag : Byte) (payload : List Byte) (s : State) : Host.Outcome State Fault Refusal :=
  s.request 0x13 tag payload

/-- FIXTURE_STATUS, type 14h (R16). -/
def execFixtureStatus (tag : Byte) (payload : List Byte) (s : State) : Host.Outcome State Fault Refusal :=
  s.request 0x14 tag payload

/-- QUEUE_STEPS, type 15h (R17, R18). -/
def execQueueSteps (tag : Byte) (payload : List Byte) (s : State) : Host.Outcome State Fault Refusal :=
  s.request 0x15 tag payload

/-- READ_RESULTS, type 16h (R22). -/
def execReadResults (tag : Byte) (payload : List Byte) (s : State) : Host.Outcome State Fault Refusal :=
  s.request 0x16 tag payload

/-- A raw change of a presence or lid switch (R1). -/
def execFixtureSwitchRawChange (f : FixtureIx) (sw : Switch) (closed : Bool) (s : State) : Host.Outcome State Fault Refusal :=
  s.atPin fun p => p.switchRaw f sw closed

/-- A debounce of a presence or lid switch ends (R1, R4). -/
def execFixtureSenseDebounced (f : FixtureIx) (sw : Switch) (s : State) : Host.Outcome State Fault Refusal :=
  s.event fun p => p.senseDebounced f sw

/-- The head of a queue is taken when nothing is in flight and the log has room (R19; log 26). -/
def execStepStart (f : FixtureIx) (s : State) : Host.Outcome State Fault Refusal := s.event fun p => p.runQueue f

/-- A step's timeout expires (R26). -/
def execStepTimeout (f : FixtureIx) (s : State) : Host.Outcome State Fault Refusal := s.event fun p => p.stepTimedOut f

/-- A WAIT step's duration expires (R33). -/
def execWaitExpiry (f : FixtureIx) (s : State) : Host.Outcome State Fault Refusal := s.event fun p => p.waitOver f

/-- A QUIESCENT step requests its next reading (R39). -/
def execQuiescentReadingDue (f : FixtureIx) (s : State) : Host.Outcome State Fault Refusal := s.event fun p => p.readingDue f

end Sys2Proof.Machine
end

