-- ==== Sys2Proof/Machine/ExecSupplies.lean ====
section
/-! DEFINITION. The meanings of the commands of the supplies and the rack monitor (chapter 3). Each is
one event, and acts on everything but the queue. -/

namespace Sys2Proof.Machine

open Sys2Proof

/-- CLEAR_FAULT, type 20h (R67). -/
def execClearFault (tag : Byte) (payload : List Byte) (s : State) : Host.Outcome State Fault Refusal :=
  s.request 0x20 tag payload

/-- The in-regulation comparator changes (R53, R58). -/
def execInRegulation (f : FixtureIx) (holds : Bool) (s : State) : Host.Outcome State Fault Refusal :=
  s.atPin fun p => p.regulation f holds

/-- The at-limit comparator comes to hold (R60). -/
def execAtLimitHolds (f : FixtureIx) (s : State) : Host.Outcome State Fault Refusal := s.event fun p => p.limitHolds f

/-- The at-limit comparator clears (R61). -/
def execAtLimitClears (f : FixtureIx) (s : State) : Host.Outcome State Fault Refusal := s.event fun p => p.limitClears f

/-- The below-500 mV comparator changes (R53, R62). -/
def execBelow500mv (f : FixtureIx) (holds : Bool) (s : State) : Host.Outcome State Fault Refusal :=
  s.atPin fun p => p.below f holds

/-- The ramp timer expires (R59). -/
def execRampTimerExpiry (f : FixtureIx) (s : State) : Host.Outcome State Fault Refusal := s.event fun p => p.rampOver f

/-- The limit timer expires (R61). -/
def execLimitTimerExpiry (f : FixtureIx) (s : State) : Host.Outcome State Fault Refusal := s.event fun p => p.limitOver f

/-- The discharge timer expires (R63). -/
def execDischargeTimerExpiry (f : FixtureIx) (s : State) : Host.Outcome State Fault Refusal :=
  s.event fun p => p.dischargeOver f

/-- The bypass comparator reports a current above 12 mA (R70). -/
def execBypassComparator (f : FixtureIx) (s : State) : Host.Outcome State Fault Refusal := s.event fun p => p.rangeHigh f

/-- The rack input moves to a voltage in mV (R72, R73). -/
def execRackLevel (mv : Nat) (s : State) : Host.Outcome State Fault Refusal := s.atPin fun p => p.rackMoves mv

end Sys2Proof.Machine
end

