-- ==== Sys2Proof/Machine/Dispatch.lean ====
section
/-! DEFINITION. The dispatch of the commands to their meanings. -/

namespace Sys2Proof.Machine

open Sys2Proof

/-- A command's effect on everything but the queue. -/
def exec (i : Instr) (s : State) : Host.Outcome State Fault Refusal :=
  match i with
  | .identify tag payload => Sys2Proof.Machine.execIdentify tag payload s
  | .partStatus tag payload => Sys2Proof.Machine.execPartStatus tag payload s
  | .setLink tag payload => Sys2Proof.Machine.execSetLink tag payload s
  | .resetPart tag payload => Sys2Proof.Machine.execResetPart tag payload s
  | .openRun tag payload => Sys2Proof.Machine.execOpenRun tag payload s
  | .endRun tag payload => Sys2Proof.Machine.execEndRun tag payload s
  | .abortRun tag payload => Sys2Proof.Machine.execAbortRun tag payload s
  | .clearRun tag payload => Sys2Proof.Machine.execClearRun tag payload s
  | .fixtureStatus tag payload => Sys2Proof.Machine.execFixtureStatus tag payload s
  | .queueSteps tag payload => Sys2Proof.Machine.execQueueSteps tag payload s
  | .readResults tag payload => Sys2Proof.Machine.execReadResults tag payload s
  | .clearFault tag payload => Sys2Proof.Machine.execClearFault tag payload s
  | .defineChannel tag payload => Sys2Proof.Machine.execDefineChannel tag payload s
  | .readChannel tag payload => Sys2Proof.Machine.execReadChannel tag payload s
  | .clearChannel tag payload => Sys2Proof.Machine.execClearChannel tag payload s
  | .markBankReady tag payload => Sys2Proof.Machine.execMarkBankReady tag payload s
  | .writePattern tag payload => Sys2Proof.Machine.execWritePattern tag payload s
  | .readPattern tag payload => Sys2Proof.Machine.execReadPattern tag payload s
  | .defineWatch tag payload => Sys2Proof.Machine.execDefineWatch tag payload s
  | .readWatch tag payload => Sys2Proof.Machine.execReadWatch tag payload s
  | .defineProbe tag payload => Sys2Proof.Machine.execDefineProbe tag payload s
  | .readProbe tag payload => Sys2Proof.Machine.execReadProbe tag payload s
  | .lendMatrix tag payload => Sys2Proof.Machine.execLendMatrix tag payload s
  | .reclaimMatrix tag payload => Sys2Proof.Machine.execReclaimMatrix tag payload s
  | .setLendLimit tag payload => Sys2Proof.Machine.execSetLendLimit tag payload s
  | .configConsole tag payload => Sys2Proof.Machine.execConfigConsole tag payload s
  | .consoleStatus tag payload => Sys2Proof.Machine.execConsoleStatus tag payload s
  | .unknownRequest ty tag payload => Sys2Proof.Machine.execUnknownRequest ty tag payload s
  | .nonRequestFrame ty tag payload => Sys2Proof.Machine.execNonRequestFrame ty tag payload s
  | .requestDropped ty tag payload => Sys2Proof.Machine.execRequestDropped ty tag payload s
  | .frameCheckFailed => Sys2Proof.Machine.execFrameCheckFailed s
  | .lengthAbove1200 low high => Sys2Proof.Machine.execLengthAbove1200 low high s
  | .receiveGapExpiry => Sys2Proof.Machine.execReceiveGapExpiry s
  | .framingError => Sys2Proof.Machine.execFramingError s
  | .transmitStart => Sys2Proof.Machine.execTransmitStart s
  | .frameSent => Sys2Proof.Machine.execFrameSent s
  | .silenceTimeout => Sys2Proof.Machine.execSilenceTimeout s
  | .powerOn rate fitted => Sys2Proof.Machine.execPowerOn rate fitted s
  | .brownout rate fitted => Sys2Proof.Machine.execBrownout rate fitted s
  | .fixtureSwitchRawChange f sw closed => Sys2Proof.Machine.execFixtureSwitchRawChange f sw closed s
  | .fixtureSenseDebounced f sw => Sys2Proof.Machine.execFixtureSenseDebounced f sw s
  | .stepStart f => Sys2Proof.Machine.execStepStart f s
  | .stepTimeout f => Sys2Proof.Machine.execStepTimeout f s
  | .waitExpiry f => Sys2Proof.Machine.execWaitExpiry f s
  | .quiescentReadingDue f => Sys2Proof.Machine.execQuiescentReadingDue f s
  | .recordGrant => Sys2Proof.Machine.execRecordGrant s
  | .transferEnd => Sys2Proof.Machine.execTransferEnd s
  | .dwellExpiry c => Sys2Proof.Machine.execDwellExpiry c s
  | .periodStart f => Sys2Proof.Machine.execPeriodStart f s
  | .phaseBoundary f => Sys2Proof.Machine.execPhaseBoundary f s
  | .lineLevelChange f line level => Sys2Proof.Machine.execLineLevelChange f line level s
  | .captureOverflow f => Sys2Proof.Machine.execCaptureOverflow f s
  | .frameReceived f frame => Sys2Proof.Machine.execFrameReceived f frame s
  | .attemptStart f => Sys2Proof.Machine.execAttemptStart f s
  | .attemptEnd f outcome => Sys2Proof.Machine.execAttemptEnd f outcome s
  | .inRegulation f holds => Sys2Proof.Machine.execInRegulation f holds s
  | .atLimitHolds f => Sys2Proof.Machine.execAtLimitHolds f s
  | .atLimitClears f => Sys2Proof.Machine.execAtLimitClears f s
  | .below500mv f holds => Sys2Proof.Machine.execBelow500mv f holds s
  | .rampTimerExpiry f => Sys2Proof.Machine.execRampTimerExpiry f s
  | .limitTimerExpiry f => Sys2Proof.Machine.execLimitTimerExpiry f s
  | .dischargeTimerExpiry f => Sys2Proof.Machine.execDischargeTimerExpiry f s
  | .bypassComparator f => Sys2Proof.Machine.execBypassComparator f s
  | .rackLevel mv => Sys2Proof.Machine.execRackLevel mv s
  | .burstGrant => Sys2Proof.Machine.execBurstGrant s
  | .settleEnd => Sys2Proof.Machine.execSettleEnd s
  | .senseReadyChange f ready => Sys2Proof.Machine.execSenseReadyChange f ready s
  | .readyWaitExpiry => Sys2Proof.Machine.execReadyWaitExpiry s
  | .burstEnd codes => Sys2Proof.Machine.execBurstEnd codes s
  | .referenceTimer => Sys2Proof.Machine.execReferenceTimer s
  | .holdLineRise => Sys2Proof.Machine.execHoldLineRise s
  | .holdLineDrop => Sys2Proof.Machine.execHoldLineDrop s
  | .lendGrant => Sys2Proof.Machine.execLendGrant s
  | .lendLimitExpiry => Sys2Proof.Machine.execLendLimitExpiry s
  | .buttonDown c k => Sys2Proof.Machine.execButtonDown c k s
  | .pressHeld c k => Sys2Proof.Machine.execPressHeld c k s
  | .buttonUp c k => Sys2Proof.Machine.execButtonUp c k s
  | .longTimeReached c k => Sys2Proof.Machine.execLongTimeReached c k s
  | .stopSwitchRawChange c pressed => Sys2Proof.Machine.execStopSwitchRawChange c pressed s
  | .consoleStop c => Sys2Proof.Machine.execConsoleStop c s
  | .flashClockPhase => Sys2Proof.Machine.execFlashClockPhase s
  | .byteReceived b => Sys2Proof.Machine.execByteReceived b s
  | .logicSupplyLoss => Sys2Proof.Machine.execLogicSupplyLoss s

end Sys2Proof.Machine
end

