-- ==== Sys2Proof/Machine/Step.lean ====
section
/-! DEFINITION. One step of the machine: the command at the front of the queue, or, on an empty queue, the passing of time. -/

namespace Sys2Proof.Machine

open Sys2Proof

/-- The passing of time on an empty queue (log 1, 3): a due timer's command, else one microsecond; nothing in a part held in
reset (R186). -/
def State.tick (s : State) : Host.Outcome State Fault Refusal :=
  if s.part.powered then
    match s.part.nextDue with
    | some i => exec i s
    | none => .next { s with part := s.part.microsecond }
  else .next s

/-- One step. -/
def step (s : State) : Host.Outcome State Fault Refusal :=
  match s.pending with
  | [] => s.tick
  | i :: rest => exec i { s with pending := rest }

/-- The command a word spells is put at the front of the queue; no word spells one (log 33). -/
def State.withFetchWord (s : State) (nbits w : Nat) : State :=
  match decodeTableWord nbits w with
  | some i => { s with pending := i :: s.pending }
  | none => s

end Sys2Proof.Machine
end

