-- ==== Sys2Proof/Safety.lean ====
section
/-! DEFINITION. What the claims speak of: a link that is free for a request, what an answer changes, what an event leaves alone,
and the laws of the part that hold at every moment. -/

namespace Sys2Proof.Machine

open Sys2Proof

/-! ## Requests -/

/-- A running part whose link is free: a request is handled in its own event and its reply is taken up at once (R177, R179). -/
structure State.Listening (s : State) : Prop where
  powered : s.part.powered = true
  noReset : s.part.link.resetPending = false
  noRequest : s.part.link.frameBuf = none
  noReply : s.part.link.reply = none
  free : s.part.link.tx = .free

/-- The part with its link as an answered request leaves it: the receiver in HUNT, the silence timer restarted, the reply going
out (R175, R178, R179). -/
def Part.answered (p : Part) (ty tag : Byte) (payload : List Byte) : Part :=
  { p with link := { p.link with rx := .hunt, rxBuf := [], silenceFrom := some p.clock
                                 tx := .sending (.reply { ty := ty, tag := tag, payload := payload }) } }

/-- The part as the owning block finds it: the receiver in HUNT, the silence timer restarted, the reply slot taken. -/
def Part.asked (p : Part) (ty tag : Byte) : Part :=
  { p with link := { p.link with rx := .hunt, rxBuf := [], silenceFrom := some p.clock
                                 reply := some { ty := ty + 0x80, tag := tag, payload := [] } } }

/-- The part once the reply has been taken up. -/
def Part.replied (p : Part) (ty tag : Byte) (data : List Byte) : Part :=
  { p with link := { p.link with tx := .sending (.reply { ty := ty + 0x80, tag := tag, payload := data }), reply := none } }

/-- Notices at the end of the queue. -/
def Part.noticed (p : Part) (ns : List Notice) : Part := { p with link := { p.link with notices := p.link.notices ++ ns } }

/-- The frame that a request command is; none for the other commands. -/
def requestFrame : Instr → Option Frame
  | .identify tag p => some { ty := 0x01, tag := tag, payload := p }
  | .partStatus tag p => some { ty := 0x02, tag := tag, payload := p }
  | .setLink tag p => some { ty := 0x03, tag := tag, payload := p }
  | .resetPart tag p => some { ty := 0x04, tag := tag, payload := p }
  | .openRun tag p => some { ty := 0x10, tag := tag, payload := p }
  | .endRun tag p => some { ty := 0x11, tag := tag, payload := p }
  | .abortRun tag p => some { ty := 0x12, tag := tag, payload := p }
  | .clearRun tag p => some { ty := 0x13, tag := tag, payload := p }
  | .fixtureStatus tag p => some { ty := 0x14, tag := tag, payload := p }
  | .queueSteps tag p => some { ty := 0x15, tag := tag, payload := p }
  | .readResults tag p => some { ty := 0x16, tag := tag, payload := p }
  | .clearFault tag p => some { ty := 0x20, tag := tag, payload := p }
  | .defineChannel tag p => some { ty := 0x30, tag := tag, payload := p }
  | .readChannel tag p => some { ty := 0x31, tag := tag, payload := p }
  | .clearChannel tag p => some { ty := 0x32, tag := tag, payload := p }
  | .markBankReady tag p => some { ty := 0x33, tag := tag, payload := p }
  | .writePattern tag p => some { ty := 0x34, tag := tag, payload := p }
  | .readPattern tag p => some { ty := 0x35, tag := tag, payload := p }
  | .defineWatch tag p => some { ty := 0x40, tag := tag, payload := p }
  | .readWatch tag p => some { ty := 0x41, tag := tag, payload := p }
  | .defineProbe tag p => some { ty := 0x50, tag := tag, payload := p }
  | .readProbe tag p => some { ty := 0x51, tag := tag, payload := p }
  | .lendMatrix tag p => some { ty := 0x52, tag := tag, payload := p }
  | .reclaimMatrix tag p => some { ty := 0x53, tag := tag, payload := p }
  | .setLendLimit tag p => some { ty := 0x54, tag := tag, payload := p }
  | .configConsole tag p => some { ty := 0x60, tag := tag, payload := p }
  | .consoleStatus tag p => some { ty := 0x61, tag := tag, payload := p }
  | .unknownRequest ty tag p => some { ty := ty, tag := tag, payload := p }
  | _ => none

/-- A state with another part and the same queue. -/
def State.withPart (s : State) (p : Part) : State := { s with part := p }

/-- Bytes received one after another. -/
def State.receive : List Byte → State → Host.Outcome State Fault Refusal
  | [], s => .next s
  | b :: bs, s =>
    match exec (.byteReceived b) s with
    | .next t => t.receive bs
    | .fault r => .fault r
    | .refused r => .refused r

/-! ## Frames of an event -/

/-- Nothing but one fixture and the link has changed. -/
def Part.OnlyFixture (f : FixtureIx) (p q : Part) : Prop :=
  { q with fixtures := p.fixtures, link := p.link } = p ∧ ∀ g, g ≠ f → q.fx g = p.fx g

/-- Nothing but one channel, the link and the record path has changed. -/
def Part.OnlyChannel (c : ChannelIx) (p q : Part) : Prop :=
  { q with channels := p.channels, link := p.link } = p ∧ ∀ d, d ≠ c → q.ch d = p.ch d

/-! ## Results -/

/-- The result record of a step of a fixture that ends at an uptime, having started at a clock (R21, section 11.4). -/
def Fixture.recordFor (x : Fixture) (st : Step) (startedAt : Nat) (uptime : BitVec 32) (e : StepEnd) : Result :=
  { seq := if x.run.seq = 65535 then 1 else x.run.seq + 1, tag := st.tag, kind := st.body.kind, verdict := e.verdict
    reason := e.reason, value := e.value, unit := e.unit, mean16 := e.mean16, range := e.range
    elapsed := uptime - BitVec.ofNat 32 (startedAt / 1000), endTime := uptime }

/-- A fixture with a record appended: no step is in flight, the verdict has risen and steps_done counted (R21, R23). -/
def Fixture.withResult (x : Fixture) (r : Result) : Fixture :=
  { x with inflight := none, log := x.log ++ [r]
           run := { x.run with seq := r.seq, verdict := x.run.verdict.max r.verdict, stepsDone := min 65535 (x.run.stepsDone + 1) } }

/-! ## Halting -/

/-- Entry to HALTING takes a part `p` with a run of `f` ACTIVE or CLOSING to a part `q`: everything R12 and R14 stop, and what they
leave alone. The rest of the converter, the lend state and the link may follow from the withdrawn request. A frame on the bus stays
with its port, even one that goes INACTIVE at once (log 36). -/
structure Part.Halted (f : FixtureIx) (r : HaltReason) (p q : Part) : Prop where
  state : (q.fx f).run.state = if (q.fx f).supply.state = .off ∨ (q.fx f).supply.state = .tripped then .ended else .halting
  reason : (q.fx f).run.haltReason = r
  verdict : (q.fx f).run.verdict =
    if r = .none ∧ (p.fx f).inflight = none then (p.fx f).run.verdict else (p.fx f).run.verdict.max .incomplete
  counts : (q.fx f).run.skipped = min 65535 ((p.fx f).run.skipped + (p.fx f).queue.length) ∧ (q.fx f).run.skipping = false ∧
    (q.fx f).run.stepsDone =
      if (p.fx f).inflight = none then (p.fx f).run.stepsDone else min 65535 ((p.fx f).run.stepsDone + 1)
  record : (q.fx f).run.runId = (p.fx f).run.runId ∧ (q.fx f).run.label = (p.fx f).run.label ∧
    (q.fx f).run.policy = (p.fx f).run.policy ∧ (q.fx f).run.priority = (p.fx f).run.priority ∧
    (q.fx f).run.busRate = (p.fx f).run.busRate ∧ (q.fx f).run.openedAt = (p.fx f).run.openedAt
  steps : (q.fx f).queue = [] ∧ (q.fx f).inflight = none ∧ (q.fx f).stalled = false
  log : (q.fx f).log = (p.fx f).log ++
    match (p.fx f).inflight with
    | none => []
    | some i => [{ seq := if (p.fx f).run.seq = 65535 then 1 else (p.fx f).run.seq + 1, tag := i.step.tag, kind := i.step.body.kind
                   verdict := .incomplete, reason := .aborted, value := none, unit := none, mean16 := none, range := none
                   elapsed := p.uptime - BitVec.ofNat 32 (i.startedAt / 1000), endTime := p.uptime }]
  outputs : (q.fx f).outs = { pins := (p.fx f).outs.pins } ∧ (q.fx f).capture.state = .idle
  port : (q.fx f).port.queue = [] ∧
    (q.fx f).port.state = (if (q.fx f).run.state = .ended then .inactive else .listen) ∧
    (q.fx f).port.response = (if (q.fx f).run.state = .ended then .none else (p.fx f).port.response) ∧
    (∀ h rest, (p.fx f).port.attempt = .head → (p.fx f).port.queue = h :: rest → (q.fx f).port.attempt = .orphan h) ∧
    ((p.fx f).port.attempt ≠ .head → (q.fx f).port.attempt = (p.fx f).port.attempt) ∧ (q.fx f).port.attempt ≠ .head
  supplyCut : (p.fx f).supply.live = true →
    (q.fx f).supply = { (p.fx f).supply with
      state := if (p.fx f).supply.below500 then .off else .discharge, tripReason := .none, range := .high
      since := p.clock, atLimit := false }
  supplyKept : (p.fx f).supply.live = false → { (q.fx f).supply with range := (p.fx f).supply.range } = (p.fx f).supply
  sense : (q.fx f).sense = (p.fx f).sense ∧ (q.fx f).watch = (p.fx f).watch
  others : ∀ g, g ≠ f → q.fx g = p.fx g
  bound : ∀ c, (p.ch c).defn.any (fun d => d.fixture = f) = true → ((p.ch c).state = .playing ∨ (p.ch c).state = .starved) →
    q.ch c = { p.ch c with state := .idle, due := false, bank := none }
  unbound : ∀ c, ((p.ch c).defn.any (fun d => d.fixture = f) = false ∨ ((p.ch c).state ≠ .playing ∧ (p.ch c).state ≠ .starved)) →
    q.ch c = p.ch c
  request : q.conv.req f = none ∧ (∀ g, g ≠ f → q.conv.req g = p.conv.req g) ∧ q.conv.cref = p.conv.cref ∧
    q.conv.refFault = p.conv.refFault
  console : q.con (consoleFor f) = { p.con (consoleFor f) with
      entries := (p.con (consoleFor f)).entries.filter fun e => !(e.owner = f && !e.isSafety) } ∧
    ∀ k, k ≠ consoleFor f → q.con k = p.con k
  rest : { q with fixtures := p.fixtures, channels := p.channels, conv := p.conv, lend := p.lend, consoleA := p.consoleA
                  consoleB := p.consoleB, link := p.link } = p

/-! ## Commands -/

/-- The commands that reach a part held in reset: the pins move, and the logic supply comes and goes (R186; log 18). -/
def reachesHeld : Instr → Bool
  | .fixtureSwitchRawChange _ _ _ => true
  | .senseReadyChange _ _ => true
  | .lineLevelChange _ _ _ => true
  | .inRegulation _ _ => true
  | .below500mv _ _ => true
  | .rackLevel _ => true
  | .holdLineRise => true
  | .holdLineDrop => true
  | .buttonDown _ _ => true
  | .buttonUp _ _ => true
  | .stopSwitchRawChange _ _ => true
  | .powerOn _ _ => true
  | .brownout _ _ => true
  | .logicSupplyLoss => true
  | _ => false

/-- The commands by which the part loses its state (R186). -/
def losesState : Instr → Bool
  | .powerOn _ _ => true
  | .brownout _ _ => true
  | .logicSupplyLoss => true
  | _ => false

/-! ## Laws of the part -/

/-- Pattern memory is in its canonical form, Cref in its band, and no more than 32 notices wait (R88, R135, R180). -/
def Part.StoreLaw (p : Part) : Prop :=
  Pattern.wf p.pattern = true ∧ 2700 ≤ p.conv.cref ∧ p.conv.cref ≤ 3300 ∧ p.link.notices.length ≤ 32

/-- The result log with the reserved slot never exceeds 64, the step queue 32, the transmit queue 16 (R17, R20, R114). -/
def Part.CapacityLaw (p : Part) : Prop :=
  ∀ f, (p.fx f).log.length + (if (p.fx f).inflight.isSome then 1 else 0) ≤ 64 ∧ (p.fx f).queue.length ≤ 32 ∧
    (p.fx f).port.queue.length ≤ 16

/-- While the matrix is LENT no burst is in progress (R138). -/
def Part.LendLaw (p : Part) : Prop := p.lend.matrix.code = 2 → p.conv.burst = none

/-- While the rack level is CUTOFF no supply is live (R73). -/
def Part.RackLaw (p : Part) : Prop := p.rack.level = .cutoff → ∀ f, (p.fx f).supply.live = false

/-- A supply is live, a step in flight and a bound channel playing only while the run is ACTIVE or CLOSING (R19, R54, R85). -/
def Part.RunLaw (p : Part) : Prop :=
  ∀ f, ((p.fx f).supply.live = true → (p.fx f).run.isOpen = true) ∧
    ((p.fx f).inflight.isSome = true → (p.fx f).run.isOpen = true) ∧
    ∀ c, (p.ch c).boundTo f = true → ((p.ch c).state = .playing ∨ (p.ch c).state = .starved) → (p.fx f).run.isOpen = true

/-- A port is ACTIVE exactly while its run is ACTIVE or CLOSING and LISTEN exactly while it is HALTING, and frames are queued only in
an ACTIVE one (R112, R117). -/
def Part.PortLaw (p : Part) : Prop :=
  ∀ f, ((p.fx f).port.state = .active ↔ (p.fx f).run.isOpen = true) ∧
    ((p.fx f).port.state = .listen ↔ (p.fx f).run.state = .halting) ∧
    ((p.fx f).port.queue ≠ [] → (p.fx f).port.state = .active)

/-- A run is ACTIVE or CLOSING only at a fitted fixture with a unit present under a closed lid, and with the STOP switch of its
console released (R2, R4, R168). -/
def Part.InterlockLaw (p : Part) : Prop :=
  ∀ f, (p.fx f).run.isOpen = true →
    p.isFitted f = true ∧ (p.fx f).sense.presence = true ∧ (p.fx f).sense.lid = true ∧ (p.con (consoleFor f)).stopLevel = false

/-- The current range is LOW only while the supply is ON and a QUIESCENT step is in flight (R68). -/
def Part.RangeLaw (p : Part) : Prop :=
  ∀ f, (p.fx f).supply.range = .low →
    (p.fx f).supply.state = .on ∧
    ∃ i last since due, (p.fx f).inflight = some i ∧ i.progress = .quiescent last since due

/-- The run verdict is never less severe than a record of the log, and the queue is empty while steps are skipped (R23, R24). -/
def Part.VerdictLaw (p : Part) : Prop :=
  ∀ f, (∀ r ∈ (p.fx f).log, r.verdict.code ≤ (p.fx f).run.verdict.code) ∧
    ((p.fx f).run.skipping = true → (p.fx f).queue = [])

/-- A prompt list: its entries are distinct and of the console's own fixtures, SAFETY stands above NORMAL, a fixture has at most
one SAFETY and one NORMAL entry, and a NORMAL entry belongs to the PROMPT step in flight (R157, R158). -/
def Part.PromptLaw (p : Part) : Prop :=
  ∀ k, ((p.con k).entries.map (·.id)).Nodup ∧
    (∀ e ∈ (p.con k).entries, e.id < (p.con k).nextId ∧ consoleFor e.owner = k) ∧
    (p.con k).entries.Pairwise (fun a b => b.isSafety = true → a.isSafety = true) ∧
    (((p.con k).entries.filter (·.isSafety)).map (·.owner)).Nodup ∧
    (((p.con k).entries.filter (!·.isSafety)).map (·.owner)).Nodup ∧
    ∀ e ∈ (p.con k).entries, e.isSafety = false →
      ∃ i, (p.fx e.owner).inflight = some i ∧ i.progress = .prompt e.id

end Sys2Proof.Machine
end

