-- ==== Sys2Proof/WellFormed.lean ====
section
/-! DEFINITION. Which commands can come about: the bounds the manual puts on a frame of the link and of the bus. -/

namespace Sys2Proof

/-- A payload fits a frame of the link: 0 to 1,200 bytes (R174). -/
def payloadFits (payload : List Byte) : Bool := payload.length ≤ 1200

/-- The request types of the index in section 10.6. -/
def knownRequestTypes : List Nat :=
  [0x01, 0x02, 0x03, 0x04, 0x10, 0x11, 0x12, 0x13, 0x14, 0x15, 0x16, 0x20, 0x30, 0x31, 0x32, 0x33, 0x34, 0x35,
   0x40, 0x41, 0x50, 0x51, 0x52, 0x53, 0x54, 0x60, 0x61]

/-- A bus frame has an identifier of its format, and a data frame carries as many bytes as its data length code says,
8 at most (R113, section 6.5). -/
def BusFrame.wf (fr : BusFrame) : Bool :=
  (fr.extended || fr.id.toNat ≤ 0x7FF) && (fr.kind ≠ .data || fr.data.length = min 8 fr.dlc.toNat)

/-- The commands that can come about. -/
def Instr.wf : Instr → Bool
  | .unknownRequest ty _ p => payloadFits p && ty.toNat < 0x70 && !knownRequestTypes.contains ty.toNat
  | .nonRequestFrame ty _ p => payloadFits p && 0x70 ≤ ty.toNat
  | .requestDropped ty _ p => payloadFits p && ty.toNat < 0x70
  | .lengthAbove1200 low high => 1200 < low.toNat + 256 * high.toNat
  | .frameReceived _ fr => fr.wf
  | .identify _ p => payloadFits p
  | .partStatus _ p => payloadFits p
  | .setLink _ p => payloadFits p
  | .resetPart _ p => payloadFits p
  | .openRun _ p => payloadFits p
  | .endRun _ p => payloadFits p
  | .abortRun _ p => payloadFits p
  | .clearRun _ p => payloadFits p
  | .fixtureStatus _ p => payloadFits p
  | .queueSteps _ p => payloadFits p
  | .readResults _ p => payloadFits p
  | .clearFault _ p => payloadFits p
  | .defineChannel _ p => payloadFits p
  | .readChannel _ p => payloadFits p
  | .clearChannel _ p => payloadFits p
  | .markBankReady _ p => payloadFits p
  | .writePattern _ p => payloadFits p
  | .readPattern _ p => payloadFits p
  | .defineWatch _ p => payloadFits p
  | .readWatch _ p => payloadFits p
  | .defineProbe _ p => payloadFits p
  | .readProbe _ p => payloadFits p
  | .lendMatrix _ p => payloadFits p
  | .reclaimMatrix _ p => payloadFits p
  | .setLendLimit _ p => payloadFits p
  | .configConsole _ p => payloadFits p
  | .consoleStatus _ p => payloadFits p
  | .frameCheckFailed => true
  | .receiveGapExpiry => true
  | .framingError => true
  | .transmitStart => true
  | .frameSent => true
  | .silenceTimeout => true
  | .powerOn _ _ => true
  | .brownout _ _ => true
  | .fixtureSwitchRawChange _ _ _ => true
  | .fixtureSenseDebounced _ _ => true
  | .stepStart _ => true
  | .stepTimeout _ => true
  | .waitExpiry _ => true
  | .quiescentReadingDue _ => true
  | .recordGrant => true
  | .transferEnd => true
  | .dwellExpiry _ => true
  | .periodStart _ => true
  | .phaseBoundary _ => true
  | .lineLevelChange _ _ _ => true
  | .captureOverflow _ => true
  | .attemptStart _ => true
  | .attemptEnd _ _ => true
  | .inRegulation _ _ => true
  | .atLimitHolds _ => true
  | .atLimitClears _ => true
  | .below500mv _ _ => true
  | .rampTimerExpiry _ => true
  | .limitTimerExpiry _ => true
  | .dischargeTimerExpiry _ => true
  | .bypassComparator _ => true
  | .rackLevel _ => true
  | .burstGrant => true
  | .settleEnd => true
  | .senseReadyChange _ _ => true
  | .readyWaitExpiry => true
  | .burstEnd _ => true
  | .referenceTimer => true
  | .holdLineRise => true
  | .holdLineDrop => true
  | .lendGrant => true
  | .lendLimitExpiry => true
  | .buttonDown _ _ => true
  | .pressHeld _ _ => true
  | .buttonUp _ _ => true
  | .longTimeReached _ _ => true
  | .stopSwitchRawChange _ _ => true
  | .consoleStop _ => true
  | .flashClockPhase => true
  | .byteReceived _ => true
  | .logicSupplyLoss => true

end Sys2Proof
end

