-- ==== Sys2Proof/Certificates/Slice0/Obligations.lean ====
section
/-! DEFINITION. The statements for the provers, in the order of OBLIGATIONS.json: the queue and the resets, the link, runs and steps,
sense and supplies, channels and outputs, bus ports, the converter and the matrix, the consoles, the evaluator, and the laws. -/

open Sys2Proof Sys2Proof.Machine

/-- A command at the front of the queue runs on the queue's rest; on an empty queue a running part takes the command of the first
timer that is due, or else one microsecond passes, and a part held in reset does nothing (the model's choices, log 1, 3 and 18). -/
def Obligations.StepTakesTheFrontCommand : Prop :=
  (∀ (c : Instr) (rest : List Instr) (p : Part),
    step { pending := c :: rest, part := p } = exec c { pending := rest, part := p }) ∧
  ∀ p : Part,
    (p.powered = false → step { pending := [], part := p } = .next { pending := [], part := p }) ∧
    (p.powered = true → ∀ c, p.nextDue = some c → step { pending := [], part := p } = exec c { pending := [], part := p }) ∧
    (p.powered = true → p.nextDue = none →
      step { pending := [], part := p } = .next { pending := [], part := p.advanceTo (p.clock + 1) })

/-- No command ends in a fault or a refusal, and none changes the queue: the part reports every error in a reply, a result, a notice
or a flag (sections 2.11 and 10.2). -/
def Obligations.NoCommandStopsThePart : Prop :=
  ∀ (c : Instr) (s : State), ∃ t, exec c s = .next t ∧ t.pending = s.pending

/-- What the passing of time and the posting of a notice do, of which the other statements speak. Time moves the clock forward and
never back; a COUNTING capture unit adds it to T, and to H while its line reads 1; nothing else changes (section 5.6). A notice is
taken up by a FREE transmitter with nothing to send, or joins the queue, or is lost when 32 wait (section 10.3). -/
def Obligations.TimeCountsAndNoticesQueue : Prop :=
  (∀ (p : Part) (t : Nat),
    { p.advanceTo t with clock := p.clock, fixtures := p.fixtures } = p ∧ (p.advanceTo t).clock = max p.clock t ∧
    ∀ f, { (p.advanceTo t).fx f with capture := (p.fx f).capture } = p.fx f ∧
      ((p.advanceTo t).fx f).capture =
        if (p.fx f).capture.state = .counting then
          { (p.fx f).capture with
            total := (p.fx f).capture.total + (t - p.clock)
            high := (p.fx f).capture.high + if (p.fx f).outs.reads (p.fx f).capture.line then t - p.clock else 0 }
        else (p.fx f).capture) ∧
  ∀ (p : Part) (n : Notice),
    (p.link.tx = .free → p.link.reply = none → p.link.notices = [] →
      p.post n = { p with link := { p.link with tx := .sending (.notice n) } }) ∧
    ((p.link.tx ≠ .free ∨ p.link.reply ≠ none ∨ p.link.notices ≠ []) → p.link.notices.length < 32 →
      p.post n = { p with link := { p.link with notices := p.link.notices ++ [n] } }) ∧
    (32 ≤ p.link.notices.length → p.post n = { p with link := { p.link with noticesLost := true } })

/-- A part held in reset does nothing until a release: only its pins move (section 10.6; that a pin's command still moves its pin is
the model's choice, log 18). -/
def Obligations.HeldInResetDoesNothing : Prop :=
  ∀ (c : Instr) (s : State), s.part.powered = false → reachesHeld c = false → exec c s = .next s

/-- The loss of the logic supply brings every output to its reset level and loses the state. The release of a power-on reset gives
every block its reset values, and a brownout differs in the cause alone (sections 1.2, 3.1, 4.1, 5.1, 6.5, 7.1, 7.5, 9.8 and 10.6).
That the pins stay, and the clocks lastByteAt, dwellEnd and due, are the model's (log 1, 27). -/
def Obligations.ResetsLoadEveryBlock : Prop :=
  (∀ s : State, ∃ t, exec .logicSupplyLoss s = .next t ∧ t.pending = s.pending ∧ t.part.powered = false ∧
     t.part.acknowledgeLine = false ∧ t.part.pattern = [] ∧ t.part.link.tx = .free ∧ t.part.link.notices = [] ∧
     (∀ f, t.part.lidLock f = false ∧ t.part.outputConnected f = false ∧ t.part.dischargeLoad f = true ∧
       t.part.bypassClosed f = true ∧ t.part.pwmPin f = false ∧ t.part.pulsePin f = false ∧ t.part.lamps f = (.off, .off, .off) ∧
       (t.part.fx f).outs.aout0 = 0 ∧ (t.part.fx f).outs.aout1 = 0 ∧ (t.part.fx f).outs.outEnable = 0 ∧
       (t.part.fx f).port.state = .inactive ∧ (t.part.fx f).port.queue = [] ∧ (t.part.fx f).run.state = .none ∧
       (t.part.fx f).queue = [] ∧ (t.part.fx f).log = [] ∧ (t.part.fx f).inflight = none ∧
       (t.part.fx f).sense.rawPresence = (s.part.fx f).sense.rawPresence ∧ (t.part.fx f).sense.rawLid = (s.part.fx f).sense.rawLid ∧
       (t.part.fx f).sense.ready = (s.part.fx f).sense.ready ∧ (t.part.fx f).outs.pins = (s.part.fx f).outs.pins ∧
       (t.part.fx f).supply.below500 = (s.part.fx f).supply.below500) ∧
     (∀ k, (t.part.con k).display = (none, List.replicate 20 0x20, List.replicate 20 0x20) ∧
       (t.part.con k).stopRaw = (s.part.con k).stopRaw ∧ ∀ b, ((t.part.con k).button b).down = ((s.part.con k).button b).down) ∧
     t.part.lend.holdLine = s.part.lend.holdLine ∧ t.part.rack.mv = s.part.rack.mv) ∧
  (∀ (s : State) (r : LinkRate) (n : FittedCount),
     (∃ t, exec (.powerOn r n) s = .next t ∧ t.pending = s.pending ∧
       exec (.brownout r n) s =
         .next { t with part := { t.part with cause := .brownout
                                              link := { t.part.link with tx := .sending (.notice (.ready .brownout)) } } } ∧
       t.part.powered = true ∧ t.part.clock = 0 ∧ t.part.rate = r ∧ t.part.fitted = n ∧ t.part.cause = .powerOn ∧
       (∀ f, let x := t.part.fx f
         let fitted : Bool := f.val < fittedCount n
         x.run = { state := .none, runId := 0, label := [], policy := .cont, priority := 3, busRate := .k500, verdict := .pass
                   haltReason := .none, stepsDone := 0, skipped := 0, skipping := false, openedAt := 0, seq := 0 } ∧
         x.queue = [] ∧ x.log = [] ∧ x.inflight = none ∧
         x.sense.presence = (fitted && (s.part.fx f).sense.rawPresence) ∧ x.sense.lid = (fitted && (s.part.fx f).sense.rawLid) ∧
         x.sense.presenceDue = none ∧ x.sense.lidDue = none ∧
         x.supply.state = .off ∧ x.supply.setpoint = 13500 ∧ x.supply.limit = 2000 ∧ x.supply.limitTime = 50 ∧ x.supply.slew = 1000 ∧
         x.supply.tripReason = .none ∧ x.supply.residual = false ∧ x.supply.range = .high ∧
         x.outs = { pins := (s.part.fx f).outs.pins } ∧ x.outs.aout0 = 0 ∧ x.outs.aout1 = 0 ∧ x.outs.outEnable = 0 ∧
         x.outs.inEnable = 0 ∧ x.outs.outLevel = 0 ∧ x.outs.pulse.phase = .stopped ∧ x.outs.pwm.enabled = false ∧
         x.capture.state = .idle ∧ x.port.state = .inactive ∧ x.port.queue = [] ∧
         ∀ e, x.watchOf e = { enabled := false, extended := false, id := 0, mask := 0, count := 0, length := 0
                              data := [0, 0, 0, 0, 0, 0, 0, 0], lastTime := 0, fresh := false }) ∧
       (∀ c, t.part.ch c = { defn := none, state := .idle, due := false, dwellEnd := 0, bank := none, position := 0, remaining := 0
                             passes := 0, readyA := false, readyB := false, fault := .none }) ∧
       (∀ a, Pattern.read t.part.pattern a = 0) ∧ t.part.pathBusy = none ∧ (∀ k, t.part.probe k = none) ∧
       (∀ f, t.part.conv.req f = none) ∧ t.part.conv.reference = some 4 ∧
       t.part.conv.burst = some { requester := .reference, input := .reference, count := 4, stage := .settling 200
                                  orphan := false, broken := false } ∧
       t.part.conv.lastInput = none ∧ t.part.conv.rangeSettle = 0 ∧ t.part.conv.cref = 3000 ∧ t.part.conv.refFault = false ∧
       t.part.conv.refDue = 1000000 ∧
       t.part.lend = { matrix := .owned, holdLimit := 2000, holdBlocked := s.part.lend.holdLine, holdLine := s.part.lend.holdLine } ∧
       t.part.rack.level = (if s.part.rack.mv ≤ 19000 then .cutoff else if s.part.rack.mv ≤ 22000 then .low else .normal) ∧
       (∀ k, (t.part.con k).entries = [] ∧ (t.part.con k).longTime = 2 ∧ (t.part.con k).stopLevel = (s.part.con k).stopRaw ∧
         (t.part.con k).stopDue = none ∧
         ∀ b, ((t.part.con k).button b).down = ((s.part.con k).button b).down ∧
           ((t.part.con k).button b).press.map (fun q => (q.phase, q.bound)) =
             if ((s.part.con k).button b).down then some (.cancelled, none) else none) ∧
       t.part.flash = { phase := 0, due := 125000 } ∧
       t.part.link = { rx := .hunt, rxBuf := [], lastByteAt := 0, frameBuf := none, reply := none
                       tx := .sending (.notice (.ready .powerOn)), notices := [], noticesLost := false, silenceTimeout := 10
                       silenceFrom := none, resetPending := false }))

/-- A command reset takes place at the last stop bit of its reply, before any other frame is taken up. It keeps the straps, pattern
memory, the definitions, the rack level and the STOP levels, and discards the rest (sections 3.1, 4.2, 4.3, 6.5, 7.5, 9.8, 10.5 and
10.6). That the pins and the below-500 mV level are kept, that the in-regulation and at-limit levels are cleared (log 27), and that
lastByteAt starts at 0 (log 1), are the model's choices. -/
def Obligations.CommandResetKeepsDefinitions : Prop :=
  ∀ (s : State) (tag : Byte), s.part.powered = true → s.part.link.resetPending = true →
    s.part.link.tx = .sending (.reply { ty := 0x84, tag := tag, payload := [0] }) →
    ∃ t, exec .frameSent s = .next t ∧ t.pending = s.pending ∧ t.part.powered = true ∧ t.part.clock = 0 ∧
      t.part.rate = s.part.rate ∧ t.part.fitted = s.part.fitted ∧ t.part.cause = .command ∧
      t.part.pattern = s.part.pattern ∧ t.part.probes = s.part.probes ∧ t.part.rack = s.part.rack ∧ t.part.pathBusy = none ∧
      t.part.link = { rx := .hunt, rxBuf := [], lastByteAt := 0, frameBuf := none, reply := none
                      tx := .sending (.notice (.ready .command)), notices := [], noticesLost := false, silenceTimeout := 10
                      silenceFrom := none, resetPending := false } ∧
      (∀ f, (t.part.fx f).run = {} ∧ (t.part.fx f).queue = [] ∧ (t.part.fx f).log = [] ∧ (t.part.fx f).inflight = none ∧
        (t.part.fx f).outs = { pins := (s.part.fx f).outs.pins } ∧ (t.part.fx f).capture.state = .idle ∧
        (t.part.fx f).port = {} ∧
        (t.part.fx f).supply =
          { state := if (s.part.fx f).supply.below500 = true ∨ s.part.isFitted f = false then .off else .discharge
            below500 := (s.part.fx f).supply.below500 } ∧
        ∀ e, (t.part.fx f).watchOf e =
          { enabled := ((s.part.fx f).watchOf e).enabled, extended := ((s.part.fx f).watchOf e).extended
            id := ((s.part.fx f).watchOf e).id, mask := ((s.part.fx f).watchOf e).mask }) ∧
      (∀ c, (t.part.ch c).defn = (s.part.ch c).defn ∧ (t.part.ch c).state = .idle ∧ (t.part.ch c).due = false ∧
        (t.part.ch c).bank = none ∧ (t.part.ch c).remaining = 0 ∧ (t.part.ch c).passes = 0 ∧
        (t.part.ch c).position = (((s.part.ch c).defn.map fun d => d.start d.first).getD 0) ∧
        (t.part.ch c).readyA = false ∧ (t.part.ch c).readyB = false ∧ (t.part.ch c).fault = .none) ∧
      t.part.conv.cref = 3000 ∧ t.part.conv.refFault = false ∧ (∀ f, t.part.conv.req f = none) ∧ t.part.lend.matrix = .owned ∧
      t.part.lend.holdLimit = 2000 ∧ t.part.lend.holdBlocked = s.part.lend.holdLine ∧
      ∀ k, (t.part.con k).entries = [] ∧ (t.part.con k).longTime = 2 ∧ (t.part.con k).stopLevel = (s.part.con k).stopLevel

/-- The check of a frame: the register starts at FFFFh, each byte enters most significant bit first, and the polynomial is x^16 +
x^12 + x^5 + 1, with no reflection and no final inversion (R174); over 31h to 39h it ends at 29B1h. Run on over its own check, high
byte first, it ends at 0: a receiver that compares and one that tests for 0 agree (section 10.1). -/
def Obligations.CheckOverItsOwnCheckIsZero : Prop :=
  let takes (r : BitVec 16) (bit : Bool) : BitVec 16 := if r.msb = bit then r <<< 1 else (r <<< 1) ^^^ 0x1021#16
  crc16 [] = 0xFFFF#16 ∧
  (∀ (l : List Byte) (b : Byte),
    crc16 (l ++ [b]) = [7, 6, 5, 4, 3, 2, 1, 0].foldl (fun r (k : Nat) => takes r (b.getLsbD k)) (crc16 l)) ∧
  crc16 [0x31, 0x32, 0x33, 0x34, 0x35, 0x36, 0x37, 0x38, 0x39] = 0x29B1#16 ∧
  ∀ l : List Byte,
    crc16 (l ++ [BitVec.ofNat 8 ((crc16 l).toNat / 256), BitVec.ofNat 8 (crc16 l).toNat]) = 0

/-- The bytes of a frame, received one after another in HUNT, are that frame received whole, for every type, tag and payload of up
to 1,200 bytes. So a request given as one command means what its bytes mean (sections 10.1 and 10.2; log 6). -/
def Obligations.BytesOfAFrameAreTheFrame : Prop :=
  ∀ (s : State) (fr : Frame), s.part.powered = true → s.part.link.rx = .hunt → fr.payload.length ≤ 1200 →
    s.receive fr.encode =
      .next { s with part := ({ s.part with link := { s.part.link with lastByteAt := s.part.clock } }).goodFrame fr }

/-- In HUNT the receiver waits for 9Eh. A length above 1,200, a gap, a framing error or a wrong check brings it back to HUNT, and of
the too long length both bytes are examined again, as if each had just arrived. A frame of type 70h or above, and a request that
finds the frame buffer occupied or a reset pending, only restart the silence timer. A request that finds the reply slot occupied
waits in the frame buffer (sections 10.1 and 10.2; log 2, 6). -/
def Obligations.ReceiverTakesAndDropsFrames : Prop :=
  (∀ (s : State), s.part.powered = true →
     let hunting := { s with part := { s.part with link := { s.part.link with rx := .hunt, rxBuf := [] } } }
     (s.part.link.rx = .hunt → ∀ b,
       exec (.byteReceived b) s =
         .next { s with part := { s.part with link := { s.part.link with
           lastByteAt := s.part.clock
           rx := if b = 0x9E then .header else .hunt
           rxBuf := if b = 0x9E then [] else s.part.link.rxBuf } } }) ∧
     exec .frameCheckFailed s = .next hunting ∧ exec .framingError s = .next hunting ∧
     (s.part.link.rx ≠ .hunt →
       exec .receiveGapExpiry s =
         .next { s with part :=
           { s.part.advanceTo (s.part.link.lastByteAt + 5000) with link := { s.part.link with rx := .hunt, rxBuf := [] } } }) ∧
     (s.part.link.rx = .hunt → exec .receiveGapExpiry s = .next s) ∧
     (∀ low high : Byte, 1200 < low.toNat + 256 * high.toNat →
       exec (.lengthAbove1200 low high) s = hunting.receive [low, high] ∧
       ∃ t, exec (.lengthAbove1200 low high) s = .next t ∧
         t.part.link.rx = (if low = 0x9E ∨ high = 0x9E then .header else .hunt) ∧
         t.part.link.rxBuf = (if low = 0x9E then [high] else [])) ∧
     ∀ low high : Byte, s.part.link.rx = .header → s.part.link.rxBuf = [low] → 1200 < low.toNat + 256 * high.toNat →
       exec (.byteReceived high) s = exec (.lengthAbove1200 low high) s) ∧
  (∀ (s : State) (ty tag : Byte) (payload : List Byte), s.part.powered = true →
     let heard := { s with part := { s.part with link := { s.part.link with
       rx := .hunt, rxBuf := [], silenceFrom := some s.part.clock } } }
     (0x70 ≤ ty.toNat → exec (.nonRequestFrame ty tag payload) s = .next heard) ∧
     (ty.toNat < 0x70 → (s.part.link.resetPending = true ∨ s.part.link.frameBuf ≠ none) →
       exec (.requestDropped ty tag payload) s = .next heard ∧ exec (.unknownRequest ty tag payload) s = .next heard) ∧
     ((s.part.link.resetPending = true ∨ s.part.link.frameBuf ≠ none) →
       ∀ c fr, requestFrame c = some fr → fr.ty.toNat < 0x70 → exec c s = .next heard) ∧
     (s.part.link.resetPending = false → s.part.link.frameBuf = none → s.part.link.reply ≠ none →
       ∀ c fr, requestFrame c = some fr → fr.ty.toNat < 0x70 →
         exec c s = .next { heard with part := { heard.part with link := { heard.part.link with frameBuf := some fr } } }))

/-- A request at a free link draws one reply in its own event: its type plus 80h, its tag, and a payload that begins with a result
code. A type outside the index draws UNKNOWN_REQUEST alone, and a wrong payload length BAD_LENGTH alone (sections 10.2, 10.6 and
11.7). -/
def Obligations.EveryRequestIsAnswered : Prop :=
  ∀ (c : Instr) (fr : Frame) (s : State), requestFrame c = some fr → fr.ty.toNat < 0x70 → s.Listening →
    (∃ t code data, exec c s = .next t ∧
      t.part.link.tx = .sending (.reply { ty := fr.ty + 0x80, tag := fr.tag, payload := BitVec.ofNat 8 code :: data }) ∧
      code ≤ 0x0B ∧ t.part.link.reply = none ∧ t.part.link.frameBuf = none ∧ t.part.link.rx = .hunt ∧
      t.part.link.silenceFrom = some s.part.clock) ∧
    (fr.ty.toNat ∉ knownRequestTypes →
      exec (.unknownRequest fr.ty fr.tag fr.payload) s = .next { s with part := s.part.answered (fr.ty + 0x80) fr.tag [0x01] }) ∧
    ((∃ n, (fr.ty.toNat, n) ∈ [(0x01, 0), (0x02, 0), (0x03, 1), (0x04, 0), (0x10, 33), (0x11, 1), (0x12, 1), (0x13, 1), (0x14, 1),
          (0x16, 2), (0x20, 1), (0x30, 17), (0x31, 1), (0x32, 1), (0x33, 2), (0x35, 3), (0x40, 12), (0x41, 2), (0x50, 16), (0x51, 1),
          (0x52, 2), (0x53, 0), (0x54, 2), (0x60, 2), (0x61, 1)] ∧ fr.payload.length ≠ n) ∨
        (fr.ty = 0x15 ∧ fr.payload.length < 2) ∨ (fr.ty = 0x34 ∧ fr.payload.length < 3) →
      exec c s = .next { s with part := s.part.answered (fr.ty + 0x80) fr.tag [0x02] })

/-- A refused request changes no state of the part but the link's own: its reply goes out, the receiver is in HUNT and the silence
timer restarts (section 10.2). -/
def Obligations.RefusedRequestsChangeNothing : Prop :=
  ∀ (c : Instr) (fr : Frame) (s t : State) (code : Byte) (data : List Byte),
    requestFrame c = some fr → fr.ty.toNat < 0x70 → s.Listening → exec c s = .next t →
    t.part.link.tx = .sending (.reply { ty := fr.ty + 0x80, tag := fr.tag, payload := code :: data }) → code ≠ 0 →
    t = { s with part := s.part.answered (fr.ty + 0x80) fr.tag (code :: data) }

/-- The transmitter takes the waiting reply, else the oldest notice, else becomes FREE; a request that waits in the frame buffer is
handled in the event that takes the reply (section 10.3). -/
def Obligations.TransmitterTakesReplyThenNotice : Prop :=
  ∀ (c : Instr) (s : State), s.part.powered = true → s.part.link.resetDue = false →
    (c = .frameSent ∧ s.part.link.tx ≠ .free) ∨ (c = .transmitStart ∧ s.part.link.tx = .free) →
    (∀ fr, s.part.link.reply = some fr → s.part.link.frameBuf = none →
      exec c s = .next { s with part := { s.part with link := { s.part.link with tx := .sending (.reply fr), reply := none } } }) ∧
    (∀ fr rq, s.part.link.reply = some fr → s.part.link.frameBuf = some rq → s.part.link.resetPending = false →
      ∃ t payload, exec c s = .next t ∧ t.part.link.tx = .sending (.reply fr) ∧ t.part.link.frameBuf = none ∧
        t.part.link.reply = some { ty := rq.ty + 0x80, tag := rq.tag, payload := payload }) ∧
    (∀ n rest, s.part.link.reply = none → s.part.link.notices = n :: rest →
      exec c s = .next { s with part := { s.part with link := { s.part.link with tx := .sending (.notice n), notices := rest } } }) ∧
    (s.part.link.reply = none → s.part.link.notices = [] →
      exec c s = .next { s with part := { s.part with link := { s.part.link with tx := .free } } })

/-- When the silence timer expires, every run that is ACTIVE or CLOSING halts with LINK_LOST, the others keep their records, and the
timer stops (section 10.4; log 2). -/
def Obligations.SilenceHaltsEveryOpenRun : Prop :=
  ∀ (s : State) (from_ : Nat), s.part.powered = true → s.part.link.silenceFrom = some from_ → s.part.link.silenceTimeout ≠ 0 →
    ∃ t, exec .silenceTimeout s = .next t ∧ t.pending = s.pending ∧ t.part.link.silenceFrom = none ∧
      t.part.clock = max s.part.clock (from_ + s.part.link.silenceTimeout * 1000000) ∧
      ∀ f, ((s.part.fx f).run.isOpen = true →
          (t.part.fx f).run.haltReason = .linkLost ∧ 2 ≤ (t.part.fx f).run.verdict.code ∧ (t.part.fx f).supply.live = false ∧
          (t.part.fx f).inflight = none ∧ (t.part.fx f).queue = [] ∧
          (t.part.fx f).run.state =
            if (t.part.fx f).supply.state = .off ∨ (t.part.fx f).supply.state = .tripped then .ended else .halting) ∧
        ((s.part.fx f).run.isOpen = false → (t.part.fx f).run = (s.part.fx f).run ∧ (t.part.fx f).supply = (s.part.fx f).supply)

/-- SET_LINK (R184): refused for a payload that is not one byte or a value above 60; else the timeout takes the value, and a new
nonzero one counts from the request's own frame. -/
def Obligations.SetLinkSetsTheTimeout : Prop :=
  ∀ (s : State) (tag : Byte) (payload : List Byte), s.Listening →
    (payload.length ≠ 1 → exec (.setLink tag payload) s = .next { s with part := s.part.answered 0x83 tag [0x02] }) ∧
    ∀ seconds : Byte, payload = [seconds] →
      (60 < seconds.toNat → exec (.setLink tag payload) s = .next { s with part := s.part.answered 0x83 tag [0x03] }) ∧
      (seconds.toNat ≤ 60 → ∃ t, exec (.setLink tag payload) s = .next t ∧
        t = { s with part :=
          { s.part with link := { s.part.link with silenceTimeout := seconds.toNat } }.answered 0x83 tag [0x00, seconds] } ∧
        t.part.link.silenceAt = if seconds = 0 then none else some (s.part.clock + seconds.toNat * 1000000))

/-- Three settings: SET_LEND_LIMIT changes hold_limit and no lend, CONFIG_CONSOLE the long time of one console and no press, and
RESET_PART marks a reset that its own reply's last bit will bring, so that later requests are dropped (sections 7.5, 9.7 and 10.5).
-/
def Obligations.SettingsTakeTheirValues : Prop :=
  ∀ (s : State) (tag : Byte), s.Listening →
    (∀ low high : Byte,
      exec (.setLendLimit tag [low, high]) s =
        .next { s with part :=
          if 100 ≤ low.toNat + 256 * high.toNat ∧ low.toNat + 256 * high.toNat ≤ 10000 then
            { s.part with lend := { s.part.lend with holdLimit := low.toNat + 256 * high.toNat } }.answered 0xD4 tag [0x00, low, high]
          else s.part.answered 0xD4 tag [0x03] }) ∧
    (∀ (k : ConsoleId) (long : Byte), 1 ≤ long.toNat → long.toNat ≤ 4 →
      exec (.configConsole tag [(match k with | .a => 0 | .b => 1), long]) s =
        .next { s with part :=
          (match k with
          | .a => { s.part with consoleA := { s.part.consoleA with longTime := long.toNat } }
          | .b => { s.part with consoleB := { s.part.consoleB with longTime := long.toNat } }).answered 0xE0 tag [0x00, long] }) ∧
    (∀ k long : Byte, 1 < k.toNat ∨ long.toNat < 1 ∨ 4 < long.toNat →
      exec (.configConsole tag [k, long]) s = .next { s with part := s.part.answered 0xE0 tag [0x03] }) ∧
    exec (.resetPart tag []) s =
      .next { s with part := { s.part with link := { s.part.link with resetPending := true } }.answered 0x84 tag [0x00] }

/-- IDENTIFY (R182): accepted at any time without a payload, changes nothing, and reports vendor and part code, revision, straps,
fitted fixtures and reset cause. -/
def Obligations.IdentifyReportsThePart : Prop :=
  ∀ (s : State) (tag : Byte) (payload : List Byte), s.Listening →
    (payload ≠ [] → exec (.identify tag payload) s = .next { s with part := s.part.answered 0x81 tag [0x02] }) ∧
    ∃ d, exec (.identify tag []) s = .next { s with part := s.part.answered 0x81 tag (0x00 :: d) } ∧ d.length = 13 ∧
      u16At d 0 = 0x4A50 ∧ byteAt d 2 = 0x57 ∧ byteAt d 3 = 0x38 ∧ byteAt d 4 = 0x43 ∧ byteAt d 5 = 1 ∧
      u32At d 6 = (match s.part.rate with | .r115200 => 115200 | .r230400 => 230400 | .r460800 => 460800 | .r921600 => 921600) ∧
      byteAt d 10 = (match s.part.fitted with | .two => 2 | .four => 4 | .six => 6 | .eight => 8) ∧
      (∀ f : FixtureIx, (byteAt d 11).testBit f.val = s.part.isFitted f) ∧
      byteAt d 12 = match s.part.cause with | .powerOn => 0 | .brownout => 1 | .command => 2

/-- PART_STATUS reports the part-wide state with notices_lost as it stood, and then clears notices_lost (sections 10.5 and 11.7). -/
def Obligations.PartStatusReportsAndClearsLost : Prop :=
  ∀ (s : State) (tag : Byte), s.Listening → s.part.conv.cref < 65536 → s.part.lend.holdLimit < 65536 →
    s.part.link.silenceTimeout < 256 →
    ∃ d, exec (.partStatus tag []) s =
        .next { s with part := { s.part with link := { s.part.link with noticesLost := false } }.answered 0x82 tag (0x00 :: d) } ∧
      d.length = 22 ∧ byteAt d 0 = s.part.rack.level.code ∧ byteAt d 1 = flagNat s.part.conv.refFault ∧
      u16At d 2 = s.part.conv.cref ∧ byteAt d 4 = s.part.lend.matrix.code ∧
      (s.part.lend.matrix = .owned → byteAt d 5 = 0) ∧
      (∀ src lim, s.part.lend.matrix = .pending src lim → byteAt d 5 = src.code) ∧
      (∀ src lim at_, s.part.lend.matrix = .lent src lim at_ → byteAt d 5 = src.code) ∧
      u16At d 6 = s.part.lend.holdLimit ∧ (∀ f : FixtureIx, byteAt d (8 + f.val) = (s.part.fx f).run.state.code) ∧
      u32At d 16 = s.part.clock / 1000 % 2 ^ 32 ∧ byteAt d 20 = s.part.link.silenceTimeout ∧
      byteAt d 21 = flagNat s.part.link.noticesLost

/-- OPEN_RUN (R7): the conditions in their order, each with its code, after the length check of section 11.7, and what an accepted
request does. The transmitter is free and the notice queue has room, so that its notice waits behind the reply (sections 1.2, 5.1,
6.1 and 11.7). That the fields of the IDLE capture unit stay (log 5) and that an attempt left on the bus is forgotten (log 36) are
the model's choices. -/
def Obligations.OpenRunFollowsItsTable : Prop :=
  ∀ (s : State) (tag : Byte) (payload : List Byte), s.Listening → s.part.link.notices.length < 32 →
    let refused (code : Byte) : Prop := exec (.openRun tag payload) s = .next (s.withPart (s.part.answered 0x90 tag [code]))
    (payload.length ≠ 33 → refused 0x02) ∧
    (payload.length = 33 → (∀ f : FixtureIx, byteAt payload 0 = f.val → s.part.isFitted f = false) → refused 0x04) ∧
    (payload.length = 33 → ∀ f : FixtureIx, byteAt payload 0 = f.val → s.part.isFitted f = true →
      let x := s.part.fx f
      if 2 < byteAt payload 1 ∨ 3 < byteAt payload 2 ∨ 2 < byteAt payload 3 ∨ 24 < byteAt payload 8 then refused 0x03
      else if x.run.state ≠ .none then refused 0x05
      else if (s.part.con (if f.val < 4 then .a else .b)).stopLevel = true then refused 0x08
      else if x.supply.state = .tripped then refused 0x09
      else if x.supply.state = .discharge then refused 0x05
      else if x.sense.presence = false then refused 0x07
      else if x.sense.lid = false then refused 0x06
      else ∃ t, exec (.openRun tag payload) s = .next t ∧ t.pending = s.pending ∧ s.part.OnlyFixture f t.part ∧
        t.part.link =
          ((s.part.noticed [.runState f .active .pass .none]).answered 0x90 tag (0x00 :: le32 s.part.uptime.toNat)).link ∧
        (let y := t.part.fx f
        y.run = { state := .active, runId := BitVec.ofNat 32 (u32At payload 4), label := (payload.drop 9).take (byteAt payload 8)
                  policy := y.run.policy, priority := y.run.priority, busRate := y.run.busRate, verdict := .pass
                  haltReason := .none, stepsDone := 0, skipped := 0, skipping := false, openedAt := s.part.uptime, seq := 0 } ∧
        y.run.policy.code = byteAt payload 1 ∧ y.run.priority.val = byteAt payload 2 ∧ y.run.busRate.code = byteAt payload 3 ∧
        y.queue = [] ∧ y.stalled = false ∧ y.log = [] ∧ y.inflight = x.inflight ∧ y.supply = x.supply ∧ y.sense = x.sense ∧
        y.outs = { pins := x.outs.pins } ∧ y.capture = { x.capture with state := .idle } ∧
        y.port = { x.port with state := .active, queue := [], attempt := .none } ∧
        (∀ e, y.watchOf e = { enabled := (x.watchOf e).enabled, extended := (x.watchOf e).extended, id := (x.watchOf e).id
                              mask := (x.watchOf e).mask, count := 0, length := 0, data := [0, 0, 0, 0, 0, 0, 0, 0], lastTime := 0
                              fresh := false }) ∧
        t.part.lidLock f = true))

/-- END_RUN is accepted in ACTIVE alone. With a step in flight the run moves to CLOSING. With an empty queue and no step it passes
on into HALTING with no reason within the event. ABORT_RUN halts an ACTIVE or CLOSING run with ABORT_REQUEST, its RUN_STATE notices
follow the reply, a HALTING run is left as it is, and a run in NONE or ENDED refuses (section 1.2). That a frame on the bus goes on
to its end where the halted run ends at once is the model's choice (log 36). -/
def Obligations.EndAndAbortCloseTheRun : Prop :=
  (∀ (s : State) (tag : Byte) (f : FixtureIx), s.Listening → s.part.link.notices.length < 32 →
     let c : Instr := .endRun tag [BitVec.ofNat 8 f.val]
     (s.part.isFitted f = false → exec c s = .next (s.withPart (s.part.answered 0x91 tag [0x04]))) ∧
     (s.part.isFitted f = true → (s.part.fx f).run.state ≠ .active →
       exec c s = .next (s.withPart (s.part.answered 0x91 tag [0x05]))) ∧
     (s.part.isFitted f = true → (s.part.fx f).run.state = .active → (s.part.fx f).inflight ≠ none →
       exec c s = .next (s.withPart (((s.part.modFx f fun x => { x with run := { x.run with state := .closing } }).noticed
           [.runState f .closing (s.part.fx f).run.verdict (s.part.fx f).run.haltReason]).answered 0x91 tag [0x00]))) ∧
     (s.part.isFitted f = true → (s.part.fx f).run.state = .active → (s.part.fx f).inflight = none → (s.part.fx f).queue = [] →
       ∃ t q, exec c s = .next t ∧ t.pending = s.pending ∧ s.part.Halted f .none q ∧ { t.part with link := q.link } = q ∧
         t.part.link.tx = .sending (.reply { ty := 0x91, tag := tag, payload := [0x00] }))) ∧
  (∀ (s : State) (tag : Byte) (f : FixtureIx), s.Listening →
     let c : Instr := .abortRun tag [BitVec.ofNat 8 f.val]
     (s.part.isFitted f = false → exec c s = .next (s.withPart (s.part.answered 0x92 tag [0x04]))) ∧
     (s.part.isFitted f = true → ((s.part.fx f).run.state = .none ∨ (s.part.fx f).run.state = .ended) →
       exec c s = .next (s.withPart (s.part.answered 0x92 tag [0x05]))) ∧
     (s.part.isFitted f = true → (s.part.fx f).run.state = .halting →
       exec c s = .next (s.withPart (s.part.answered 0x92 tag [0x00]))) ∧
     (s.part.isFitted f = true → (s.part.fx f).run.isOpen = true →
       ∃ t q, exec c s = .next t ∧ t.pending = s.pending ∧ s.part.Halted f .abortRequest q ∧ { t.part with link := q.link } = q ∧
         t.part.link.tx = .sending (.reply { ty := 0x92, tag := tag, payload := [0x00] }) ∧
         (s.part.conv.burst = none → s.part.link.notices.length + 2 ≤ 32 →
           t.part.link.notices = s.part.link.notices ++ [.runState f .halting (t.part.fx f).run.verdict .abortRequest] ++
             if (t.part.fx f).run.state = .ended then [.runState f .ended (t.part.fx f).run.verdict .abortRequest] else [])))

/-- CLEAR_RUN (R15): in ENDED it frees the fixture and reports how many unread records it discards; it leaves a latched trip, which
still refuses the next OPEN_RUN. -/
def Obligations.ClearRunFreesTheFixture : Prop :=
  (∀ (s : State) (tag : Byte) (f : FixtureIx), s.Listening →
    let c : Instr := .clearRun tag [BitVec.ofNat 8 f.val]
    (s.part.isFitted f = false → exec c s = .next (s.withPart (s.part.answered 0x93 tag [0x04]))) ∧
    (s.part.isFitted f = true → (s.part.fx f).run.state ≠ .ended →
      exec c s = .next (s.withPart (s.part.answered 0x93 tag [0x05]))) ∧
    (s.part.isFitted f = true → (s.part.fx f).run.state = .ended →
      exec c s = .next (s.withPart ((s.part.modFx f fun x => { x with log := [], run := { x.run with state := .none } }).answered 0x93 tag
          [0x00, BitVec.ofNat 8 (s.part.fx f).log.length])))) ∧
  ∀ (s : State) (tag : Byte) (payload : List Byte) (f : FixtureIx), s.Listening → s.part.isFitted f = true →
    (s.part.fx f).run.state = .none → (s.part.fx f).supply.state = .tripped → (s.part.con (consoleFor f)).stopLevel = false →
    payload.length = 33 → byteAt payload 0 = f.val → byteAt payload 1 ≤ 2 → byteAt payload 2 ≤ 3 → byteAt payload 3 ≤ 2 →
    byteAt payload 8 ≤ 24 → exec (.openRun tag payload) s = .next (s.withPart (s.part.answered 0x90 tag [0x09]))

/-- FIXTURE_STATUS (R16, section 11.7): accepted at every fitted fixture, changes nothing, and reports the fixture as it stands. -/
def Obligations.FixtureStatusReports : Prop :=
  ∀ (s : State) (tag : Byte) (f : FixtureIx), s.Listening →
    (s.part.isFitted f = false →
      exec (.fixtureStatus tag [BitVec.ofNat 8 f.val]) s = .next (s.withPart (s.part.answered 0x94 tag [0x04]))) ∧
    (s.part.isFitted f = true →
      ∃ d, exec (.fixtureStatus tag [BitVec.ofNat 8 f.val]) s = .next (s.withPart (s.part.answered 0x94 tag (0x00 :: d))) ∧
        d.length = 69 ∧
        let x := s.part.fx f
        byteAt d 0 = flagNat x.sense.presence ∧ byteAt d 1 = flagNat x.sense.lid ∧
        byteAt d 2 = (match x.sense.presence, x.sense.lid with
          | false, false => 0 | true, false => 1 | true, true => 2 | false, true => 3) ∧
        byteAt d 3 = flagNat x.sense.ready ∧ byteAt d 4 = flagNat (s.part.lidLock f) ∧
        byteAt d 5 = x.run.state.code ∧ u32At d 6 = x.run.runId.toNat ∧
        (x.run.label.length ≤ 24 → byteAt d 10 = x.run.label.length ∧ (d.drop 11).take x.run.label.length = x.run.label) ∧
        byteAt d 35 = x.run.policy.code ∧ byteAt d 36 = x.run.priority.val ∧ byteAt d 37 = x.run.busRate.code ∧
        byteAt d 38 = x.run.verdict.code ∧ byteAt d 39 = x.run.haltReason.code ∧
        (x.run.stepsDone ≤ 65535 → u16At d 40 = x.run.stepsDone) ∧ (x.run.skipped ≤ 65535 → u16At d 42 = x.run.skipped) ∧
        byteAt d 44 = flagNat x.run.skipping ∧ u32At d 45 = x.run.openedAt.toNat ∧
        (x.run.seq ≤ 65535 → u16At d 49 = x.run.seq) ∧
        (x.queue.length ≤ 32 → byteAt d 51 = x.queue.length ∧ byteAt d 52 = 32 - x.queue.length) ∧
        (x.log.length ≤ 64 → byteAt d 53 = x.log.length) ∧
        byteAt d 54 = flagNat x.inflight.isSome ∧ byteAt d 55 = flagNat x.inflight.isSome ∧
        (∀ i, x.inflight = some i → u16At d 56 = i.step.tag.toNat ∧ byteAt d 58 = i.step.body.kind.code ∧
          u32At d 59 = (s.part.uptime - BitVec.ofNat 32 (i.startedAt / 1000)).toNat) ∧
        byteAt d 63 = flagNat x.stalled ∧ byteAt d 64 = x.supply.state.code ∧ byteAt d 65 = x.supply.tripReason.code ∧
        byteAt d 66 = flagNat x.supply.residual ∧ byteAt d 67 = x.supply.range.code ∧
        ∀ l : LineIx, (byteAt d 68).testBit l.val = x.outs.reads l)

/-- QUEUE_STEPS: the checks in their order with their details, and an accepted request's steps, less those that skipping takes, at
the tail of the queue. With no step in flight the head starts as at a STEP_START, within the event, its notices behind the reply,
which counts the free places after it (R17 to R19, section 1.3). Of each step slot: when check 4 refuses it, and what it says (R25,
R28, R33, R34, R43, R49, section 11.2; PatternMemoryReadsWhatWasWritten spells out a SET step's record). -/
def Obligations.QueueStepsChecksAndAppends : Prop :=
  ∀ (s : State) (tag : Byte) (payload : List Byte), s.Listening →
    let answer (data : List Byte) : Prop := exec (.queueSteps tag payload) s = .next (s.withPart (s.part.answered 0x95 tag data))
    let count := byteAt payload 1
    (2 ≤ payload.length → (∀ f : FixtureIx, byteAt payload 0 = f.val → s.part.isFitted f = false) → answer [0x04]) ∧
    (2 ≤ payload.length → ∀ f : FixtureIx, byteAt payload 0 = f.val → s.part.isFitted f = true →
      ((s.part.fx f).run.state ≠ .active → answer [0x05]) ∧
      ((s.part.fx f).run.state = .active → (count < 1 ∨ 16 < count ∨ payload.length ≠ 2 + 52 * count) → answer [0x02]) ∧
      ((s.part.fx f).run.state = .active → 1 ≤ count → count ≤ 16 → payload.length = 2 + 52 * count →
        (∀ k, parseAll parseStep 0 (pieces 52 count (payload.drop 2)) = .error k → answer [0x03, BitVec.ofNat 8 k]) ∧
        ∀ steps, parseAll parseStep 0 (pieces 52 count (payload.drop 2)) = .ok steps →
          let x := s.part.fx f
          let kept := if x.run.skipping then (steps.dropWhile fun st => st.body ≠ .mark).drop 1 else steps
          (32 - x.queue.length < kept.length → answer [0x0A, BitVec.ofNat 8 (32 - x.queue.length)]) ∧
          (kept.length ≤ 32 - x.queue.length →
            let joined : Part := s.part.modFx f fun x =>
              { x with queue := x.queue ++ kept
                       run := { x.run with
                         skipping := x.run.skipping && steps.all fun st => st.body ≠ .mark
                         skipped := min 65535 (x.run.skipped + (steps.length - kept.length)) } }
            (x.inflight ≠ none →
              exec (.queueSteps tag payload) s = .next (s.withPart (joined.answered 0x95 tag
                [0x00, BitVec.ofNat 8 kept.length, BitVec.ofNat 8 (steps.length - kept.length),
                 BitVec.ofNat 8 (32 - (x.queue.length + kept.length))]))) ∧
            ∃ q, exec (.stepStart f) (s.withPart (joined.asked 0x15 tag)) = .next (s.withPart q) ∧
              exec (.queueSteps tag payload) s = .next (s.withPart (q.replied 0x15 tag
                [0x00, BitVec.ofNat 8 kept.length, BitVec.ofNat 8 (steps.length - kept.length),
                 BitVec.ofNat 8 (32 - (q.fx f).queue.length)]))))) ∧
    ∀ slot : List Byte,
      let b (k : Nat) : Nat := byteAt slot k
      let time (k : Nat) : Prop := u32At slot k ≤ 600000
      let limits : Option Int × Option Int :=
        (if (b 5).testBit 0 then some (s32At slot 8) else none, if (b 5).testBit 1 then some (s32At slot 12) else none)
      let takes : Prop := match b 2 with
        | 1 => recordOk ((slot.drop 4).take 16) = true
        | 2 => b 3 ≤ 31
        | 3 => b 3 ≤ 31
        | 4 => time 4
        | 5 => time 12 ∧ match b 3 with
          | 1 => b 4 ≤ 31
          | 2 => True
          | 3 => b 4 ≤ 7 ∧ b 5 ≤ 1
          | 4 => b 4 ≤ 7
          | 5 => 1 ≤ u16At slot 6 ∧ u16At slot 6 ≤ 10000 ∧ time 8
          | _ => False
        | 6 => b 3 ≤ 127 ∧ b 4 ∈ [0, 1, 2, 4, 8, 16, 32, 64] ∧ 0 ≤ s32At slot 16 ∧ time 20 ∧
            ∀ l u, limits = (some l, some u) → l ≤ u
        | 7 => 1 ≤ b 3 ∧ b 3 ≤ 2 ∧ b 4 ≤ 40 ∧ time 8 ∧ ∀ c ∈ (slot.drop 12).take (b 4), 0x20 ≤ c.toNat ∧ c.toNat ≤ 0x7E
        | 8 => True
        | _ => False
      (parseStep slot = none ↔ ¬ takes) ∧
      ∀ st, parseStep slot = some st → st.tag.toNat = u16At slot 0 ∧ st.body.kind.code = b 2 ∧
        match st.body with
        | .set r => r = (slot.drop 4).take 16
        | .start c => c.val = b 3
        | .stop c => c.val = b 3
        | .wait t => t = u32At slot 4
        | .waitFor cond t => t = u32At slot 12 ∧ (match cond with
          | .channelEnd c => b 3 = 1 ∧ c.val = b 4
          | .supplyOn => b 3 = 2
          | .line l level => b 3 = 3 ∧ l.val = b 4 ∧ flagNat level = b 5
          | .frame e => b 3 = 4 ∧ e.val = b 4
          | .quiescent threshold hold => b 3 = 5 ∧ threshold = u16At slot 6 ∧ hold = u32At slot 8)
        | .measure n k lo hi g t => n.val = b 3 ∧ k = b 4 ∧ (lo, hi) = limits ∧ (g : Int) = s32At slot 16 ∧ t = u32At slot 20
        | .prompt kind t text => kind.code = b 3 ∧ t = u32At slot 8 ∧ text = (slot.drop 12).take (b 4)
        | .mark => True

/-- READ_RESULTS: its checks, and the oldest records taken from the log and returned with the number left. A removal that ends a
stall, or finds no step in flight, lets the head start as at a STEP_START, its notices behind the reply (R20, R22). And the 24 bytes
of a result record, in which an absent value is 0 and its presence bit clear (sections 1.3 and 11.4; log 34). -/
def Obligations.ReadResultsTakesTheOldest : Prop :=
  (∀ (s : State) (tag : Byte) (f : FixtureIx) (most : Byte), s.Listening →
     let c : Instr := .readResults tag [BitVec.ofNat 8 f.val, most]
     (s.part.isFitted f = false → exec c s = .next (s.withPart (s.part.answered 0x96 tag [0x04]))) ∧
     (s.part.isFitted f = true → (most.toNat < 1 ∨ 16 < most.toNat) →
       exec c s = .next (s.withPart (s.part.answered 0x96 tag [0x03]))) ∧
     (s.part.isFitted f = true → 1 ≤ most.toNat → most.toNat ≤ 16 → (s.part.fx f).run.state = .none →
       exec c s = .next (s.withPart (s.part.answered 0x96 tag [0x05]))) ∧
     (s.part.isFitted f = true → 1 ≤ most.toNat → most.toNat ≤ 16 → (s.part.fx f).run.state ≠ .none →
       ((s.part.fx f).run.isOpen = false ∨ (s.part.fx f).inflight ≠ none ∨
         ((s.part.fx f).run.state = .active ∧ (s.part.fx f).queue = [])) →
       exec c s = .next (s.withPart ((s.part.modFx f fun x => { x with log := x.log.drop most.toNat }).answered 0x96 tag
           (0x00 :: BitVec.ofNat 8 (min most.toNat (s.part.fx f).log.length) ::
             ((s.part.fx f).log.take most.toNat).flatMap Result.encode ++
             [BitVec.ofNat 8 ((s.part.fx f).log.length - most.toNat)])))) ∧
     (s.part.isFitted f = true → 1 ≤ most.toNat → most.toNat ≤ 16 → (s.part.fx f).run.state ≠ .none →
       ∃ q, exec (.stepStart f) (s.withPart ((s.part.modFx f fun x => { x with log := x.log.drop most.toNat }).asked 0x16 tag)) =
           .next (s.withPart q) ∧
         exec c s = .next (s.withPart (q.replied 0x16 tag
           (0x00 :: BitVec.ofNat 8 (min most.toNat (s.part.fx f).log.length) ::
             ((s.part.fx f).log.take most.toNat).flatMap Result.encode ++
             [BitVec.ofNat 8 ((s.part.fx f).log.length - most.toNat)]))))) ∧
  (∀ r : Result, r.seq ≤ 65535 → (∀ m, r.mean16 = some m → m ≤ 65535) → (∀ u, r.unit = some u → u ≤ 255) →
     (∀ v, r.value = some v → -2147483648 ≤ v ∧ v ≤ 2147483647) →
     r.encode.length = 24 ∧ u16At r.encode 0 = r.seq ∧ u16At r.encode 2 = r.tag.toNat ∧ byteAt r.encode 4 = r.kind.code ∧
     byteAt r.encode 5 = r.verdict.code ∧ byteAt r.encode 6 = r.reason.code ∧
     (byteAt r.encode 7).testBit 0 = r.value.isSome ∧ (byteAt r.encode 7).testBit 1 = r.unit.isSome ∧
     (byteAt r.encode 7).testBit 2 = r.mean16.isSome ∧ (byteAt r.encode 7).testBit 3 = r.range.isSome ∧ byteAt r.encode 7 < 16 ∧
     s32At r.encode 8 = r.value.getD 0 ∧ byteAt r.encode 12 = r.unit.getD 0 ∧ byteAt r.encode 13 = (r.range.map Range.code).getD 0 ∧
     u16At r.encode 14 = r.mean16.getD 0 ∧ u32At r.encode 16 = r.elapsed.toNat ∧ u32At r.encode 20 = r.endTime.toNat)

/-- The head of the queue: taken only by an ACTIVE or CLOSING run with no step in flight; a MARK is removed and the next examined; a
full log stalls the queue and posts one LOG_FULL; an empty queue ends a CLOSING run (sections 1.2 and 1.3). That a frame on the bus
goes on to its end where the halted run ends at once is the model's choice (log 36). -/
def Obligations.HeadOfTheQueueIsExamined : Prop :=
  ∀ (s : State) (f : FixtureIx), s.part.powered = true →
    let x := s.part.fx f
    ((x.run.isOpen = false ∨ x.inflight ≠ none) → exec (.stepStart f) s = .next s) ∧
    (x.run.state = .active → x.inflight = none → x.queue = [] → exec (.stepStart f) s = .next s) ∧
    (x.run.state = .closing → x.inflight = none → x.queue = [] →
      ∃ q, exec (.stepStart f) s = .next (s.withPart (q)) ∧ s.part.Halted f .none q) ∧
    (x.run.isOpen = true → x.inflight = none → ∀ st rest, x.queue = st :: rest →
      (st.body = .mark →
        exec (.stepStart f) s = exec (.stepStart f) { s with part := s.part.modFx f fun x => { x with queue := rest } }) ∧
      (st.body ≠ .mark → 64 ≤ x.log.length →
        (x.stalled = true → exec (.stepStart f) s = .next s) ∧
        (x.stalled = false →
          exec (.stepStart f) s = .next (s.withPart ((s.part.modFx f fun x => { x with stalled := true }).post (.logFull f))))))

/-- A step that starts and goes on: it leaves the queue and is in flight from this clock, doing what its kind does first. A SET step
waits for a busy record path (sections 1.3, 2.2, 2.4, 2.5 and 2.7). -/
def Obligations.StepsStartAndWait : Prop :=
  ∀ (s : State) (f : FixtureIx) (st : Step) (rest : List Step), s.part.powered = true → (s.part.fx f).run.isOpen = true →
    (s.part.fx f).inflight = none → (s.part.fx f).queue = st :: rest → (s.part.fx f).log.length < 64 →
    let x := s.part.fx f
    let started (g : Progress) (p : Part) : Part :=
      p.modFx f fun x =>
        { x with queue := rest, stalled := false, inflight := some { step := st, startedAt := s.part.clock, progress := g } }
    let plain : Prop := exec (.stepStart f) s = .next (s.withPart (started .plain s.part))
    (∀ r, st.body = .set r → s.part.pathBusy ≠ none → plain) ∧
    (∀ ms, st.body = .wait ms → ms ≠ 0 → plain) ∧
    (∀ timeout, st.body = .waitFor .supplyOn timeout → x.supply.state ≠ .on → plain) ∧
    (∀ l level timeout, st.body = .waitFor (.line l level) timeout → x.outs.inEnable.getLsbD l.val = true →
      x.outs.reads l ≠ level → plain) ∧
    (∀ c timeout, st.body = .waitFor (.channelEnd c) timeout → (s.part.ch c).boundTo f = true →
      ((s.part.ch c).state = .playing ∨ (s.part.ch c).state = .starved) → plain) ∧
    (∀ e timeout, st.body = .waitFor (.frame e) timeout → (x.watchOf e).enabled = true →
      exec (.stepStart f) s = .next (s.withPart ((started .plain s.part).modWatch f e fun w => { w with fresh := false }))) ∧
    (∀ kind timeout text, st.body = .prompt kind timeout text →
      exec (.stepStart f) s = .next (s.withPart ((started (.prompt (s.part.con (consoleFor f)).nextId) s.part).modCon (consoleFor f) fun c =>
          { c with entries := c.entries ++
                     [{ id := c.nextId, owner := f, cls := .normal kind st.tag x.run.runId, text := text }]
                   nextId := c.nextId + 1 }))) ∧
    (∀ n samples lower upper guard timeout pr l q w, st.body = .measure n samples lower upper guard timeout →
      s.part.probe n = some pr → pr.fixture = f → pr.body = .timing l q w → x.outs.inEnable.getLsbD l.val = true →
      exec (.stepStart f) s = .next (s.withPart ((started (.timing pr) s.part).modFx f fun x =>
        { x with capture := { state := .armed, line := l, window := w, periods := 0, total := 0, high := 0 } }))) ∧
    (∀ n samples lower upper guard timeout pr e b w sg nu de o, st.body = .measure n samples lower upper guard timeout →
      s.part.probe n = some pr → pr.fixture = f → pr.body = .frameField e b w sg nu de o → (x.watchOf e).enabled = true →
      exec (.stepStart f) s = .next (s.withPart ((started (.frameField pr) s.part).modWatch f e fun w => { w with fresh := false }))) ∧
    (∀ n samples lower upper guard timeout pr point settle dflt low high burst,
      st.body = .measure n samples lower upper guard timeout →
      s.part.probe n = some pr → pr.fixture = f → pr.body = .analog point settle dflt low high → s.part.conv.burst = some burst →
      exec (.stepStart f) s = .next (s.withPart ({ started (.analog pr []) s.part with
        conv := s.part.conv.setReq f (some { level := x.run.priority, kind := .analog point settle
                                             remaining := if samples = 0 then dflt else samples }) }))) ∧
    (∀ threshold hold timeout burst, st.body = .waitFor (.quiescent threshold hold) timeout → x.supply.state = .on →
      s.part.conv.burst = some burst →
      exec (.stepStart f) s = .next (s.withPart ({ started (.quiescent none none none) s.part with
        conv := s.part.conv.setReq f (some { level := x.run.priority, kind := .quiescent, remaining := 4 }) })))

/-- A step that ends at the moment it starts leaves its result at once. A START of a PINGPONG channel enters its ready first bank,
or starves for it. The queue is then empty, and CONTINUE leaves the run as it is (sections 1.3, 2.3 to 2.6 and 4.2). That a channel
which starves at its START keeps the `remaining` of its last play is the model's choice (log 37). -/
def Obligations.StepsEndAtTheirStart : Prop :=
  ∀ (s : State) (f : FixtureIx) (st : Step), s.part.powered = true → (s.part.fx f).run.state = .active →
    (s.part.fx f).run.policy = .cont → (s.part.fx f).inflight = none → (s.part.fx f).queue = [st] → (s.part.fx f).log.length < 64 →
    let x := s.part.fx f
    let ends (e : StepEnd) (p : Part) : Prop :=
      exec (.stepStart f) s = .next (s.withPart (p.modFx f fun x =>
          { x with queue := [], stalled := false }.withResult (x.recordFor st s.part.clock s.part.uptime e)))
    let incomplete (r : Reason) : Prop := ends { verdict := .incomplete, reason := r } s.part
    let passes : Prop := ends { verdict := .pass, reason := .none } s.part
    (st.body = .wait 0 → passes) ∧
    (∀ c timeout, st.body = .waitFor (.channelEnd c) timeout →
      ((s.part.ch c).boundTo f = false → incomplete .notBound) ∧
      ((s.part.ch c).boundTo f = true → (s.part.ch c).state = .faulted → incomplete .channelFault) ∧
      ((s.part.ch c).boundTo f = true → ((s.part.ch c).state = .idle ∨ (s.part.ch c).state = .done) → passes)) ∧
    (∀ timeout, st.body = .waitFor .supplyOn timeout → x.supply.state = .on → passes) ∧
    (∀ l level timeout, st.body = .waitFor (.line l level) timeout →
      (x.outs.inEnable.getLsbD l.val = false → incomplete .lineDisabled) ∧
      (x.outs.inEnable.getLsbD l.val = true → x.outs.reads l = level → passes)) ∧
    (∀ e timeout, st.body = .waitFor (.frame e) timeout → (x.watchOf e).enabled = false → incomplete .watchDisabled) ∧
    (∀ threshold hold timeout, st.body = .waitFor (.quiescent threshold hold) timeout → x.supply.state ≠ .on →
      incomplete .supplyNotOn) ∧
    (∀ n samples lower upper guard timeout, st.body = .measure n samples lower upper guard timeout →
      (∀ pr, s.part.probe n = some pr → pr.fixture ≠ f) → incomplete .undefinedProbe) ∧
    (∀ n samples lower upper guard timeout pr, st.body = .measure n samples lower upper guard timeout →
      s.part.probe n = some pr → pr.fixture = f →
      (∀ l q w, pr.body = .timing l q w → x.outs.inEnable.getLsbD l.val = false → incomplete .lineDisabled) ∧
      (∀ e b w sg nu de o, pr.body = .frameField e b w sg nu de o → (x.watchOf e).enabled = false → incomplete .undefinedProbe)) ∧
    (∀ c, st.body = .start c →
      ((s.part.ch c).boundTo f = false → s.part.pathBusy ≠ none → incomplete .notBound) ∧
      ((s.part.ch c).boundTo f = true → (s.part.ch c).state = .faulted → s.part.pathBusy ≠ none → incomplete .channelFault) ∧
      ((s.part.ch c).boundTo f = true → ((s.part.ch c).state = .playing ∨ (s.part.ch c).state = .starved) →
        s.part.pathBusy ≠ none → incomplete .busy) ∧
      ∀ d, (s.part.ch c).defn = some d → d.fixture = f → ((s.part.ch c).state = .idle ∨ (s.part.ch c).state = .done) →
        d.mode ≠ .pingpong → s.part.pathBusy ≠ none →
        ends { verdict := .pass, reason := .none } (s.part.modCh c fun ch =>
          { ch with state := .playing, due := true, bank := some .a, position := d.aStart, remaining := d.aCount, passes := 0 })) ∧
    (∀ c d, st.body = .start c → (s.part.ch c).defn = some d → d.fixture = f →
      ((s.part.ch c).state = .idle ∨ (s.part.ch c).state = .done) → d.mode = .pingpong → s.part.pathBusy ≠ none →
      let first : Bank := if d.firstBank = 2 then .b else .a
      let start := match first with | .a => d.aStart | .b => d.bStart
      let count := match first with | .a => d.aCount | .b => d.bCount
      let ready := match first with | .a => (s.part.ch c).readyA | .b => (s.part.ch c).readyB
      (ready = true → ends { verdict := .pass, reason := .none } (s.part.modCh c fun ch =>
        { ch with state := .playing, due := true, bank := some first, position := start, remaining := count, passes := 0
                  readyA := ch.readyA && first != .a, readyB := ch.readyB && first != .b })) ∧
      (ready = false → ends { verdict := .pass, reason := .none } ((s.part.modCh c fun ch =>
        { ch with state := .starved, due := false, bank := none, position := start, passes := 0 }).post
        (.channelEvent c f .starved (some first) 0 .none)))) ∧
    (∀ c, st.body = .stop c →
      ((s.part.ch c).boundTo f = false → incomplete .notBound) ∧
      ((s.part.ch c).boundTo f = true → ((s.part.ch c).state = .playing ∨ (s.part.ch c).state = .starved) →
        ends { verdict := .pass, reason := .none } (s.part.modCh c fun ch =>
          { ch with state := .idle, due := false, bank := none })) ∧
      ((s.part.ch c).boundTo f = true → (s.part.ch c).state ≠ .playing → (s.part.ch c).state ≠ .starved → passes))

/-- The ends that a fixture's timers bring: a WAIT passes at its duration, a timeout ends a step as its kind says, a QUIESCENT step
asks for its next reading, each at its deadline (log 2); with no such timer the expiry does nothing (log 19). A timeout withdraws
the converter request: a burst of its own runs on orphaned, a READY wait is abandoned, and what it held up follows (its order
against the next head is the model's choice, log 38). A QUIESCENT step carries its last reading and gives the LOW range back. The
queue is then empty, and CONTINUE leaves the run as it is (sections 2.1, 2.4 to 2.7 and 7.3). -/
def Obligations.StepTimersEndSteps : Prop :=
  ∀ (s : State) (f : FixtureIx), s.part.powered = true →
    let x := s.part.fx f
    (x.waitUntil = none → exec (.waitExpiry f) s = .next s) ∧ (x.timeoutAt = none → exec (.stepTimeout f) s = .next s) ∧
    (x.readingAt = none → exec (.quiescentReadingDue f) s = .next s) ∧
    (x.run.state = .active → x.run.policy = .cont → x.queue = [] → ∀ i, x.inflight = some i →
      let ends (c : Instr) (at_ : Nat) (e : StepEnd) (g : Part → Part) : Prop :=
        exec c s = .next (s.withPart (g ((s.part.advanceTo at_).modFx f fun x =>
          x.withResult (x.recordFor i.step i.startedAt (s.part.advanceTo at_).uptime e))))
      (∀ ms, i.step.body = .wait ms → i.progress = .plain →
        ends (.waitExpiry f) (i.startedAt + ms * 1000) { verdict := .pass, reason := .none } id) ∧
      (∀ cond ms, i.step.body = .waitFor cond ms → ms ≠ 0 → i.progress = .plain →
        ends (.stepTimeout f) (i.startedAt + ms * 1000) { verdict := .fail, reason := .timeout } id) ∧
      (∀ n k lo hi g ms, i.step.body = .measure n k lo hi g ms → ms ≠ 0 →
        (∀ pr, i.progress = .frameField pr →
          ends (.stepTimeout f) (i.startedAt + ms * 1000) { verdict := .incomplete, reason := .timeout } id) ∧
        (∀ pr, i.progress = .timing pr → x.capture.state = .armed →
          ends (.stepTimeout f) (i.startedAt + ms * 1000) { verdict := .incomplete, reason := .noEdges }
            fun p => p.modFx f fun x => { x with capture := { x.capture with state := .idle } }) ∧
        (∀ pr, i.progress = .timing pr → x.capture.state = .counting →
          ends (.stepTimeout f) (i.startedAt + ms * 1000) { verdict := .incomplete, reason := .timeout }
            fun p => p.modFx f fun x => { x with capture := { x.capture with state := .idle } }) ∧
        (∀ pr taken, i.progress = .analog pr taken → s.part.conv.burst = none →
          ends (.stepTimeout f) (i.startedAt + ms * 1000) { verdict := .incomplete, reason := .timeout }
            fun p => { p with conv := s.part.conv.setReq f none }) ∧
        (∀ pr taken b, i.progress = .analog pr taken → s.part.conv.burst = some b → (b.requester ≠ .fixture f ∨ b.orphan = true) →
          ends (.stepTimeout f) (i.startedAt + ms * 1000) { verdict := .incomplete, reason := .timeout }
            fun p => { p with conv := s.part.conv.setReq f none }) ∧
        (∀ pr taken b, i.progress = .analog pr taken → s.part.conv.burst = some b → b.requester = .fixture f → b.orphan = false →
          ((∀ g, b.stage ≠ .waitReady g) →
            ends (.stepTimeout f) (i.startedAt + ms * 1000) { verdict := .incomplete, reason := .timeout }
              fun p => { p with conv := { s.part.conv.setReq f none with burst := some { b with orphan := true } } }) ∧
          (∀ g, b.stage = .waitReady g →
            let p := s.part.advanceTo (i.startedAt + ms * 1000)
            let gone : Part := { p.modFx f fun x => x.withResult (x.recordFor i.step i.startedAt p.uptime
                { verdict := .incomplete, reason := .timeout }) with
              conv := { s.part.conv.setReq f none with burst := none, lastInput := none } }
            (s.part.lend.matrix = .owned → exec (.stepTimeout f) s = exec .burstGrant (s.withPart gone)) ∧
            ∀ src limit, s.part.lend.matrix = .pending src limit →
              exec (.stepTimeout f) s = .next (s.withPart ({ gone with
                lend := { s.part.lend with matrix := .lent src limit p.clock } }.post (.matrixEvent .lent src limit)))))) ∧
      (∀ threshold hold ms last since due, i.step.body = .waitFor (.quiescent threshold hold) ms → ms ≠ 0 →
        i.progress = .quiescent last since due → (∀ b, s.part.conv.burst = some b → ∀ g, b.stage ≠ .waitReady g) →
        let e : StepEnd := { verdict := .fail, reason := .timeout, value := last.map fun r => r.value
                             mean16 := last.map fun r => r.mean16, range := last.map fun r => r.range }
        let running : Option Burst := s.part.conv.burst.map fun b =>
          if b.requester = .fixture f then { b with orphan := true } else b
        (x.supply.range = .high → ends (.stepTimeout f) (i.startedAt + ms * 1000) e
          fun p => { p with conv := { s.part.conv.setReq f none with burst := running } }) ∧
        (x.supply.range = .low → ends (.stepTimeout f) (i.startedAt + ms * 1000) e
          fun p => { p.modFx f fun x => { x with supply := { x.supply with range := .high } } with
            conv := { s.part.conv.setReq f none with
              lastInput := none
              rangeSettle := s.part.conv.rangeSettle ||| (1#8 <<< f.val)
              burst := running.map fun b =>
                if b.input = .point f 9 .high ∨ b.input = .point f 9 .low then { b with broken := true } else b } })) ∧
      (∀ kind ms text n, i.step.body = .prompt kind ms text → ms ≠ 0 → i.progress = .prompt n →
        ends (.stepTimeout f) (i.startedAt + ms * 1000) { verdict := .incomplete, reason := .noAnswer }
          fun p => p.modCon (consoleFor f) fun c =>
            { c with entries := c.entries.filter fun e => !(e.owner = f && !e.isSafety) }) ∧
      (∀ last since due b, i.progress = .quiescent last since (some due) → s.part.conv.burst = some b →
        exec (.quiescentReadingDue f) s = .next (s.withPart { (s.part.advanceTo (due * 1000)).modFx f fun x =>
            { x with inflight := some { i with progress := .quiescent last since none } } with
          conv := s.part.conv.setReq f (some { level := x.run.priority, kind := .quiescent, remaining := 4 }) })))

/-- The failure policy on a FAIL or INCOMPLETE result, here that of a WAIT_FOR timeout, and then the head of the queue: CONTINUE
goes on, SKIP drops the queue through its first MARK or, without one, whole and sets skipping, STOP halts (section 1.3). That the
expiry moves the clock to its deadline is the model's choice (log 2). That a frame on the bus goes on to its end where the halted
run ends at once is the model's choice (log 36). -/
def Obligations.FailurePolicyActs : Prop :=
  ∀ (s : State) (f : FixtureIx) (i : InFlight) (cond : Condition) (ms : Nat), s.part.powered = true →
    (s.part.fx f).run.isOpen = true → (s.part.fx f).inflight = some i → i.step.body = .waitFor cond ms → ms ≠ 0 →
    i.progress = .plain →
    let p := s.part.advanceTo (i.startedAt + ms * 1000)
    let r := (s.part.fx f).recordFor i.step i.startedAt p.uptime { verdict := .fail, reason := .timeout }
    ((s.part.fx f).run.policy = .cont →
      exec (.stepTimeout f) s = exec (.stepStart f) (s.withPart (p.modFx f fun x => x.withResult r))) ∧
    ((s.part.fx f).run.policy = .skip → (∀ st ∈ (s.part.fx f).queue, st.body ≠ .mark) →
      exec (.stepTimeout f) s = exec (.stepStart f) (s.withPart (p.modFx f fun x =>
        let y := x.withResult r
        { y with queue := []
                 run := { y.run with skipped := min 65535 (y.run.skipped + x.queue.length), skipping := true } }))) ∧
    ((s.part.fx f).run.policy = .skip → ∀ before mark after, (s.part.fx f).queue = before ++ mark :: after →
      (∀ st ∈ before, st.body ≠ .mark) → mark.body = .mark →
      exec (.stepTimeout f) s = exec (.stepStart f) (s.withPart (p.modFx f fun x =>
        let y := x.withResult r
        { y with queue := after, run := { y.run with skipped := min 65535 (y.run.skipped + (before.length + 1)) } }))) ∧
    ((s.part.fx f).run.policy = .stop →
      ∃ q, exec (.stepTimeout f) s = .next (s.withPart q) ∧ (p.modFx f fun x => x.withResult r).Halted f .policy q)

/-- The switches of a fixture: a raw change starts or stops a debounce of 20 ms; one that has run out stands, and the change is
debounced after it (log 15). The end of a debounce moves the clock to its deadline (log 2), gives the level and posts FIXTURE_SENSE,
the lid's first when both end within a millisecond. A report at the present level changes nothing (log 16). An unfitted fixture, and
a part held in reset, have pins alone (log 18; section 1.1). -/
def Obligations.SwitchesAreDebounced : Prop :=
  ∀ (s : State) (f : FixtureIx),
    let sense := (s.part.fx f).sense
    let put (p : Part) (v : Sense) : Part := p.modFx f fun x => { x with sense := v }
    let now := s.part.clock
    let debounced (v level : Bool) : Option Nat := if v = level then none else some (now + 20000)
    let presence : Bool := sense.rawPresence != sense.presenceAfter.isSome
    let lid : Bool := sense.rawLid != sense.lidAfter.isSome
    let idle : Prop := (s.part.fx f).run.state = .none ∨ (s.part.fx f).run.state = .ended
    (∀ v, (s.part.powered = false ∨ s.part.isFitted f = false) →
      exec (.fixtureSwitchRawChange f .presence v) s = .next (s.withPart (put s.part { sense with rawPresence := v })) ∧
      exec (.fixtureSwitchRawChange f .lid v) s = .next (s.withPart (put s.part { sense with rawLid := v }))) ∧
    (s.part.powered = true →
      (∀ v, s.part.isFitted f = true →
        (v ≠ sense.rawPresence → (∀ t, sense.presenceDue = some t → now < t) →
          exec (.fixtureSwitchRawChange f .presence v) s = .next (s.withPart (put s.part
            { sense with rawPresence := v, presenceDue := debounced v sense.presence, presenceAfter := none }))) ∧
        (v ≠ sense.rawPresence → (∃ t, sense.presenceDue = some t ∧ t ≤ now) →
          exec (.fixtureSwitchRawChange f .presence v) s = .next (s.withPart (put s.part
            { sense with rawPresence := v, presenceAfter := debounced v (!sense.presence) }))) ∧
        (v ≠ sense.rawLid → (∀ t, sense.lidDue = some t → now < t) →
          exec (.fixtureSwitchRawChange f .lid v) s = .next (s.withPart (put s.part
            { sense with rawLid := v, lidDue := debounced v sense.lid, lidAfter := none }))) ∧
        (v ≠ sense.rawLid → (∃ t, sense.lidDue = some t ∧ t ≤ now) →
          exec (.fixtureSwitchRawChange f .lid v) s = .next (s.withPart (put s.part
            { sense with rawLid := v, lidAfter := debounced v (!sense.lid) }))) ∧
        (v = sense.rawPresence → exec (.fixtureSwitchRawChange f .presence v) s = .next s) ∧
        (v = sense.rawLid → exec (.fixtureSwitchRawChange f .lid v) s = .next s)) ∧
      (sense.lidDue = none → exec (.fixtureSenseDebounced f .lid) s = .next s) ∧
      (sense.presenceDue = none → exec (.fixtureSenseDebounced f .presence) s = .next s) ∧
      (∀ t, sense.lidDue = some t → (lid = true ∨ idle) →
        exec (.fixtureSenseDebounced f .lid) s = .next (s.withPart
          ((put (s.part.advanceTo t) { sense with lid := lid, lidDue := sense.lidAfter, lidAfter := none }).post
            (.fixtureSense f sense.presence lid)))) ∧
      (∀ t, sense.presenceDue = some t → (∀ u, sense.lidDue = some u → t / 1000 ≠ u / 1000) → (presence = true ∨ idle) →
        exec (.fixtureSenseDebounced f .presence) s = .next (s.withPart
          ((put (s.part.advanceTo t)
              { sense with presence := presence, presenceDue := sense.presenceAfter, presenceAfter := none }).post
            (.fixtureSense f presence sense.lid)))) ∧
      ∀ t u, sense.presenceDue = some t → sense.lidDue = some u → t / 1000 = u / 1000 → ((presence = true ∧ lid = true) ∨ idle) →
        exec (.fixtureSenseDebounced f .presence) s = .next (s.withPart
          (((put (s.part.advanceTo (max t u))
              { sense with presence := presence, presenceDue := sense.presenceAfter, presenceAfter := none
                           lid := lid, lidDue := sense.lidAfter, lidAfter := none }).post
            (.fixtureSense f sense.presence lid)).post (.fixtureSense f presence lid))))

/-- The interlock: a lid that opens or a unit that goes cuts the supply and halts an ACTIVE or CLOSING run with LID, and the fixture
gets its SAFETY entry at the top; in HALTING it cuts a live supply and no more (section 1.1; StepsKeepTheRunLaws keeps every run
from HALTING with one). That the debounce's end moves the clock to its deadline is the model's choice (log 2), and so is what a raw
reversal after that deadline does (log 15). That a frame on the bus goes on to its end where the halted run ends at once is the
model's choice (log 36). -/
def Obligations.InterlockHaltsTheRun : Prop :=
  ∀ (s : State) (f : FixtureIx) (sw : Switch) (t : Nat), s.part.powered = true →
    (match sw with
      | .lid => (s.part.fx f).sense.lidDue = some t ∧ (s.part.fx f).sense.rawLid = (s.part.fx f).sense.lidAfter.isSome
      | .presence => (s.part.fx f).sense.presenceDue = some t ∧
          (∀ u, (s.part.fx f).sense.lidDue = some u → t / 1000 ≠ u / 1000) ∧
          (s.part.fx f).sense.rawPresence = (s.part.fx f).sense.presenceAfter.isSome) →
    let p := (s.part.advanceTo t).modFx f fun x => { x with sense := match sw with
      | .lid => { x.sense with lid := false, lidDue := x.sense.lidAfter, lidAfter := none }
      | .presence => { x.sense with presence := false, presenceDue := x.sense.presenceAfter, presenceAfter := none } }
    let text : List Byte := match sw with
      | .lid => chars ['L', 'I', 'D', ' ', 'O', 'P', 'E', 'N']
      | .presence => chars ['U', 'N', 'I', 'T', ' ', 'R', 'E', 'M', 'O', 'V', 'E', 'D']
    ((s.part.fx f).run.isOpen = true →
      ∃ q, p.Halted f .lid q ∧
        exec (.fixtureSenseDebounced f sw) s = .next (s.withPart (q.modCon (consoleFor f) fun c =>
          { c with entries := { id := c.nextId, owner := f, cls := .safety, text := text } ::
                     c.entries.filter (fun e => !(e.owner = f && e.isSafety))
                   nextId := c.nextId + 1 }))) ∧
    ((s.part.fx f).run.state = .halting →
      ∃ q, exec (.fixtureSenseDebounced f sw) s = .next (s.withPart q) ∧ (q.fx f).supply.live = false ∧
        (q.fx f).run.haltReason = (s.part.fx f).run.haltReason ∧ (∀ k, q.con k = s.part.con k) ∧ (∀ g, g ≠ f → q.fx g = p.fx g) ∧
        ((s.part.fx f).supply.live = true → (q.fx f).supply.tripReason = .none ∧
          (q.fx f).supply.state = (if (s.part.fx f).supply.below500 then .off else .discharge) ∧
          (q.fx f).run.state = (if (s.part.fx f).supply.below500 then .ended else .halting)))

/-- CLEAR_FAULT: a latched trip is released to OFF with its SAFETY entry, unless its residual voltage still stands; in any other
state the SAFETY entry alone goes (section 3.5). -/
def Obligations.ClearFaultReleasesTheTrip : Prop :=
  ∀ (s : State) (tag : Byte) (f : FixtureIx), s.Listening → s.part.link.notices.length < 32 →
    let c : Instr := .clearFault tag [BitVec.ofNat 8 f.val]
    let u := (s.part.fx f).supply
    let dropped (p : Part) : Part := p.modCon (consoleFor f) fun c =>
      { c with entries := c.entries.filter fun e => !(e.owner = f && e.isSafety) }
    (s.part.isFitted f = false → exec c s = .next (s.withPart (s.part.answered 0xA0 tag [0x04]))) ∧
    (s.part.isFitted f = true → u.state = .tripped → (u.residual = false ∨ u.below500 = true) →
      exec c s = .next (s.withPart (((dropped (s.part.modFx f fun x =>
          { x with supply := { x.supply with state := .off, tripReason := .none, residual := false, since := s.part.clock } })).noticed
          [.supplyEvent f .cleared .off .none false]).answered 0xA0 tag [0x00, 0x00]))) ∧
    (s.part.isFitted f = true → u.state = .tripped → u.residual = true → u.below500 = false →
      exec c s = .next (s.withPart (s.part.answered 0xA0 tag [0x05, 0x05]))) ∧
    (s.part.isFitted f = true → u.state ≠ .tripped →
      exec c s = .next (s.withPart ((dropped s.part).answered 0xA0 tag [0x00, BitVec.ofNat 8 u.state.code])))

/-- The comparators of a supply: in-regulation takes RAMP to ON, or on to LIMIT where the soft-start limit is the limit itself and
the current is held there (log 29); at-limit takes ON to LIMIT and its clearing LIMIT to ON, each with a fresh timer. An entry to ON
ends a WAIT_FOR SUPPLY_ON. A report in a state that does not act on its comparator changes the comparator's level alone, and at
setpoint 0 in-regulation never clears (sections 3.3 and 3.4; log 8). On the LOW range a QUIESCENT step is in flight (RangeLaw): the
bypass comparator and the entry to LIMIT bring the range back to HIGH, clear below_since, break a burst on point 9, empty the last
input and set the range-settle flag (sections 2.5 and 3.6). -/
def Obligations.ComparatorsMoveTheSupply : Prop :=
  ∀ (s : State) (f : FixtureIx), s.part.powered = true →
    let u := (s.part.fx f).supply
    let put (v : Supply) : Part := s.part.modFx f fun x => { x with supply := v }
    let now := s.part.clock
    let up : Supply := { u with inRegulation := true, below500 := u.below500 && decide (u.setpoint < 3000) }
    let hears (i : InFlight) : InFlight := match i.progress with
      | .quiescent last _ due => { i with progress := .quiescent last none due }
      | _ => i
    let told (v : Supply) : Part := s.part.modFx f fun x => { x with supply := v, inflight := x.inflight.map hears }
    let toHigh (v : Supply) : Part := { told { v with range := .high } with
      conv := { s.part.conv with
        lastInput := none
        rangeSettle := s.part.conv.rangeSettle ||| (1#8 <<< f.val)
        burst := s.part.conv.burst.map fun b =>
          if b.input = .point f 9 .high ∨ b.input = .point f 9 .low then { b with broken := true } else b } }
    let reading : Prop := ∃ i last since due, (s.part.fx f).inflight = some i ∧ i.progress = .quiescent last since due
    let waiting (i : InFlight) : Prop := ∃ ms, i.step.body = .waitFor .supplyOn ms
    let passes (i : InFlight) (p : Part) : Part := p.modFx f fun x =>
      x.withResult (x.recordFor i.step i.startedAt s.part.uptime { verdict := .pass, reason := .none })
    (u.state ≠ .ramp → exec (.inRegulation f true) s = .next (s.withPart (put up))) ∧
    (u.setpoint ≠ 0 → exec (.inRegulation f false) s = .next (s.withPart (put { u with inRegulation := false }))) ∧
    (u.setpoint = 0 → exec (.inRegulation f false) s = .next s) ∧
    (u.state = .ramp → u.range = .high →
      let held : Bool := u.atLimit && decide (max 50 (u.limit / 4 / 10 * 10) = u.limit)
      let entered : Part :=
        if held then told { up with state := .limit, since := now } else put { up with state := .on, since := now, atLimit := false }
      ((∀ i, (s.part.fx f).inflight = some i → ¬ waiting i) → exec (.inRegulation f true) s = .next (s.withPart entered)) ∧
      ((s.part.fx f).run.state = .active → (s.part.fx f).queue = [] → ∀ i, (s.part.fx f).inflight = some i → waiting i →
        i.progress = .plain → exec (.inRegulation f true) s = .next (s.withPart (passes i entered)))) ∧
    (u.live = false → exec (.atLimitHolds f) s = .next s) ∧
    ((u.state = .ramp ∨ u.state = .limit) → exec (.atLimitHolds f) s = .next (s.withPart (put { u with atLimit := true }))) ∧
    (u.state = .on → u.range = .high →
      exec (.atLimitHolds f) s = .next (s.withPart (told { u with atLimit := true, state := .limit, since := now }))) ∧
    (s.part.RangeLaw → u.range = .low →
      u.state = .on ∧ reading ∧
      exec (.atLimitHolds f) s = .next (s.withPart (toHigh { u with atLimit := true, state := .limit, since := now })) ∧
      exec (.bypassComparator f) s = .next (s.withPart (toHigh u))) ∧
    (u.state ≠ .limit → exec (.atLimitClears f) s = .next (s.withPart (put { u with atLimit := false }))) ∧
    (u.state = .limit →
      let back : Part := put { u with atLimit := false, state := .on, since := now }
      ((∀ i, (s.part.fx f).inflight = some i → ¬ waiting i) → exec (.atLimitClears f) s = .next (s.withPart back)) ∧
      ((s.part.fx f).run.state = .active → (s.part.fx f).queue = [] → ∀ i, (s.part.fx f).inflight = some i → waiting i →
        i.progress = .plain → exec (.atLimitClears f) s = .next (s.withPart (passes i back)))) ∧
    (u.range = .high → exec (.bypassComparator f) s = .next s)

/-- A ramp that takes 250 ms and a limit that lasts limit_time trip the supply: it disconnects, its reason and SAFETY entry stand,
an ACTIVE or CLOSING run halts with SUPPLY_TRIP, a HALTING one ends with it. A discharge below 500 mV goes to OFF, or to TRIPPED
when a trip is pending, and a HALTING run ends. After 1,000 ms it goes to TRIPPED with the residual flag, a first trip reason being
RACK, and the discharge load stays (sections 3.3 to 3.5; log 2, 8). -/
def Obligations.SupplyTimersTripAndDischargesEnd : Prop :=
  (∀ (s : State) (f : FixtureIx) (c : Instr) (at_ : Nat) (reason : TripReason) (text : List Byte), s.part.powered = true →
     let u := (s.part.fx f).supply
     ((u.state ≠ .ramp → exec (.rampTimerExpiry f) s = .next s) ∧ (u.state ≠ .limit → exec (.limitTimerExpiry f) s = .next s)) ∧
     ((c = .rampTimerExpiry f ∧ u.state = .ramp ∧ at_ = u.since + 250000 ∧ reason = .rampTimeout ∧
         text = chars ['S', 'U', 'P', 'P', 'L', 'Y', ' ', 'T', 'R', 'I', 'P', ':', ' ', 'R', 'A', 'M', 'P', ' ', 'T', 'I', 'M', 'E',
           'O', 'U', 'T']) ∨
       (c = .limitTimerExpiry f ∧ u.state = .limit ∧ at_ = u.since + u.limitTime * 1000 ∧ reason = .overcurrent ∧
         text = chars ['S', 'U', 'P', 'P', 'L', 'Y', ' ', 'T', 'R', 'I', 'P', ':', ' ', 'O', 'V', 'E', 'R', 'C', 'U', 'R', 'R', 'E',
           'N', 'T']) →
       ∃ t, exec c s = .next t ∧ t.pending = s.pending ∧ t.part.clock = max s.part.clock at_ ∧
         (t.part.fx f).supply =
           { u with
             state := if u.below500 then .tripped else .discharge, tripReason := reason, range := .high, since := max s.part.clock at_
             atLimit := false, residual := if u.below500 then false else u.residual } ∧
         (∃ n rest, (t.part.con (consoleFor f)).entries = { id := n, owner := f, cls := .safety, text := text } :: rest ∧
           ∀ e ∈ rest, ¬ (e.owner = f ∧ e.isSafety = true)) ∧
         (∀ g, g ≠ f → (t.part.fx g).supply = (s.part.fx g).supply ∧ (t.part.fx g).run = (s.part.fx g).run) ∧
         ((s.part.fx f).run.isOpen = true →
           (t.part.fx f).run.haltReason = .supplyTrip ∧ (t.part.fx f).queue = [] ∧ (t.part.fx f).inflight = none ∧
           (t.part.fx f).run.verdict = (s.part.fx f).run.verdict.max .incomplete ∧
           (t.part.fx f).run.state = if u.below500 then .ended else .halting) ∧
         ((s.part.fx f).run.isOpen = false →
           { (t.part.fx f).run with state := (s.part.fx f).run.state } = (s.part.fx f).run ∧
           (t.part.fx f).run.state =
             if (s.part.fx f).run.state = .halting ∧ u.below500 = true then .ended else (s.part.fx f).run.state))) ∧
  (∀ (s : State) (f : FixtureIx), s.part.powered = true →
     let u := (s.part.fx f).supply
     let seen (v : Bool) : Supply := { u with below500 := v, inRegulation := u.inRegulation && !(v && decide (3000 ≤ u.setpoint)) }
     let ended (p : Part) : Part := if (s.part.fx f).run.state = .halting then
         (p.modFx f fun x => { x with run := { x.run with state := .ended }, port := { x.port with state := .inactive, response := .none } }).post
           (.runState f .ended (s.part.fx f).run.verdict (s.part.fx f).run.haltReason)
       else p
     (exec (.below500mv f false) s = .next (s.withPart (
       let p := s.part.modFx f fun x => { x with supply := seen false }
       if u.state = .off ∨ u.state = .tripped then ended p else p))) ∧
     (u.state = .discharge → exec (.below500mv f true) s = .next (s.withPart (ended (s.part.modFx f fun x =>
       { x with supply := { seen true with
           state := if u.tripReason = .none then .off else .tripped, since := s.part.clock
           residual := if u.tripReason = .none then u.residual else false } })))) ∧
     (u.state ≠ .discharge → exec (.below500mv f true) s = .next (s.withPart (
       let p := s.part.modFx f fun x => { x with supply := seen true }
       if u.state = .off ∨ u.state = .tripped then ended p else p))) ∧
     (u.state ≠ .discharge → exec (.dischargeTimerExpiry f) s = .next s) ∧
     (u.state = .discharge → u.range = .high →
       ∃ t, exec (.dischargeTimerExpiry f) s = .next t ∧ t.pending = s.pending ∧ t.part.dischargeLoad f = true ∧
         t.part.clock = max s.part.clock (u.since + 1000000) ∧
         (t.part.fx f).supply = { u with
           state := .tripped, residual := true, since := max s.part.clock (u.since + 1000000)
           tripReason := if u.tripReason = .none then .rack else u.tripReason } ∧
         (∃ n rest, (t.part.con (consoleFor f)).entries =
             { id := n, owner := f, cls := .safety
               text := chars ['R', 'E', 'S', 'I', 'D', 'U', 'A', 'L', ' ', 'V', 'O', 'L', 'T', 'A', 'G', 'E', ':', ' '] ++
                 match u.tripReason with
                 | .overcurrent => chars ['O', 'V', 'E', 'R', 'C', 'U', 'R', 'R', 'E', 'N', 'T']
                 | .rampTimeout => chars ['R', 'A', 'M', 'P', ' ', 'T', 'I', 'M', 'E', 'O', 'U', 'T']
                 | _ => chars ['R', 'A', 'C', 'K', ' ', 'C', 'U', 'T', 'O', 'F', 'F'] } :: rest) ∧
         ((s.part.fx f).run.state = .halting → (t.part.fx f).run = { (s.part.fx f).run with state := .ended }) ∧
         ((s.part.fx f).run.isOpen = true → u.tripReason = .none →
           (t.part.fx f).run.haltReason = .supplyTrip ∧ (t.part.fx f).run.state = .ended ∧ (t.part.fx f).inflight = none) ∧
         ∀ g, g ≠ f → (t.part.fx g).supply = (s.part.fx g).supply ∧ (t.part.fx g).run = (s.part.fx g).run))

/-- The rack level follows the input voltage through its thresholds, one notice a level; a fall into CUTOFF trips every live supply
with RACK and halts its run, and leaves the others (section 3.7). -/
def Obligations.RackLevelFollowsTheInput : Prop :=
  ∀ (s : State) (mv : Nat), s.part.powered = true →
    let was := s.part.rack.level
    let now : RackLevel := match was with
      | .normal => if mv ≤ 19000 then .cutoff else if mv ≤ 22000 then .low else .normal
      | .low => if mv ≤ 19000 then .cutoff else if 22500 < mv then .normal else .low
      | .cutoff => if mv ≤ 19500 then .cutoff else if 22500 < mv then .normal else .low
    let noticed : List Notice := match was, now with
      | .normal, .low => [.rackLevel .low .normal]
      | .normal, .cutoff => [.rackLevel .low .normal, .rackLevel .cutoff .low]
      | .low, .normal => [.rackLevel .normal .low]
      | .low, .cutoff => [.rackLevel .cutoff .low]
      | .cutoff, .low => [.rackLevel .low .cutoff]
      | .cutoff, .normal => [.rackLevel .low .cutoff, .rackLevel .normal .low]
      | _, _ => []
    ((now ≠ .cutoff ∨ was = .cutoff ∨ ∀ f, (s.part.fx f).supply.live = false) →
      exec (.rackLevel mv) s =
        .next (s.withPart (noticed.foldl (fun p n => p.post n) { s.part with rack := { mv := mv, level := now } }))) ∧
    (now = .cutoff → was ≠ .cutoff →
      ∃ t, exec (.rackLevel mv) s = .next t ∧ t.pending = s.pending ∧ t.part.rack = { mv := mv, level := .cutoff } ∧
        ∀ f, ((s.part.fx f).supply.live = true →
            (t.part.fx f).supply.tripReason = .rack ∧
            (t.part.fx f).supply.state = (if (s.part.fx f).supply.below500 then .tripped else .discharge) ∧
            ((s.part.fx f).run.isOpen = true → (t.part.fx f).run.haltReason = .supplyTrip ∧
              ((t.part.fx f).run.state = .halting ∨ (t.part.fx f).run.state = .ended))) ∧
          ((s.part.fx f).supply.live = false → (t.part.fx f).supply = (s.part.fx f).supply ∧
            (t.part.fx f).run = (s.part.fx f).run))

/-- The channel requests: DEFINE_CHANNEL's checks in their order and its fresh channel, the 30 bytes of READ_CHANNEL, and
CLEAR_CHANNEL, which releases a FAULTED channel alone. MARK_BANK_READY: its checks in their order. A channel that starves for the
bank enters it at once, with BANK_FREE for the bank it has played, its due record granted at once by a free path, and in every other
case the flag stays set (sections 4.1, 4.2 and 11.7). That READ_CHANNEL's byte 17 reports the named enable bits alone is the model's
reading (log 23), and that BANK_FREE is posted before the notices of that record is its choice (log 39). -/
def Obligations.ChannelsAreDefinedMarkedAndCleared : Prop :=
  (∀ (s : State) (tag : Byte) (c : ChannelIx), s.Listening →
     let ch := s.part.ch c
     let cb := BitVec.ofNat 8 c.val
     (∀ big : Byte, 31 < big.toNat →
       exec (.readChannel tag [big]) s = .next (s.withPart (s.part.answered 0xB1 tag [0x03])) ∧
       exec (.clearChannel tag [big]) s = .next (s.withPart (s.part.answered 0xB2 tag [0x03]))) ∧
     (ch.state = .faulted → exec (.clearChannel tag [cb]) s =
       .next (s.withPart ((s.part.modCh c fun ch => { ch with state := .idle, fault := .none }).answered 0xB2 tag [0x00]))) ∧
     (ch.state ≠ .faulted → exec (.clearChannel tag [cb]) s = .next (s.withPart (s.part.answered 0xB2 tag [0x05]))) ∧
     (∀ payload : List Byte, payload.length = 17 → 31 < byteAt payload 0 →
       exec (.defineChannel tag payload) s = .next (s.withPart (s.part.answered 0xB0 tag [0x03]))) ∧
     (∀ (payload : List Byte) (f : FixtureIx), payload.length = 17 → payload.getD 0 0 = cb →
       ((∀ g : FixtureIx, byteAt payload 1 = g.val → s.part.isFitted g = false) →
         exec (.defineChannel tag payload) s = .next (s.withPart (s.part.answered 0xB0 tag [0x04]))) ∧
       (payload.getD 1 0 = BitVec.ofNat 8 f.val → s.part.isFitted f = true →
         let level := byteAt payload 2
         let mode := byteAt payload 3
         let extentOk (start count : Nat) : Prop := 1 ≤ count ∧ count ≤ 16384 ∧ start + count ≤ 16384
         let fieldsOk : Prop := level ≤ 3 ∧ mode ≤ 2 ∧ byteAt payload 15 ≤ 1 ∧ extentOk (u16At payload 6) (u16At payload 8) ∧
           (mode = 2 → extentOk (u16At payload 10) (u16At payload 12) ∧ (byteAt payload 14 = 1 ∨ byteAt payload 14 = 2))
         (¬ fieldsOk → exec (.defineChannel tag payload) s = .next (s.withPart (s.part.answered 0xB0 tag [0x03]))) ∧
         (fieldsOk → (ch.state = .playing ∨ ch.state = .starved ∨ ch.state = .faulted) →
           exec (.defineChannel tag payload) s = .next (s.withPart (s.part.answered 0xB0 tag [0x05]))) ∧
         (fieldsOk → (ch.state = .idle ∨ ch.state = .done) →
           ∃ d, exec (.defineChannel tag payload) s = .next (s.withPart ((s.part.modCh c fun _ =>
               { defn := some d, state := .idle, due := false, dwellEnd := 0, bank := none
                 position := if mode = 2 ∧ byteAt payload 14 = 2 then u16At payload 10 else u16At payload 6
                 remaining := 0, passes := 0, readyA := false, readyB := false, fault := .none }).answered 0xB0 tag [0x00])) ∧
             d.fixture = f ∧ d.level.val = level ∧ d.mode.code = mode ∧ d.repeats = u16At payload 4 ∧
             d.aStart = u16At payload 6 ∧ d.aCount = u16At payload 8 ∧ d.bStart = u16At payload 10 ∧ d.bCount = u16At payload 12 ∧
             d.firstBank = payload.getD 14 0 ∧ d.unitMs = (byteAt payload 15 == 1) ∧
             d.half = (byteAt payload 16).testBit 0 ∧ d.endNotice = (byteAt payload 16).testBit 1))) ∧
     ∃ r, exec (.readChannel tag [cb]) s = .next (s.withPart (s.part.answered 0xB1 tag (0x00 :: r))) ∧ r.length = 30 ∧
       byteAt r 0 = flagNat ch.defn.isSome ∧ (ch.defn = none → (r.drop 1).take 17 = List.replicate 17 0) ∧
       (∀ d, ch.defn = some d → byteAt r 1 = c.val ∧ byteAt r 2 = d.fixture.val ∧ byteAt r 3 = d.level.val ∧
         byteAt r 4 = d.mode.code ∧ (d.repeats ≤ 65535 → u16At r 5 = d.repeats) ∧ (d.aStart ≤ 65535 → u16At r 7 = d.aStart) ∧
         (d.aCount ≤ 65535 → u16At r 9 = d.aCount) ∧ (d.bStart ≤ 65535 → u16At r 11 = d.bStart) ∧
         (d.bCount ≤ 65535 → u16At r 13 = d.bCount) ∧ r.getD 15 0 = d.firstBank ∧ byteAt r 16 = flagNat d.unitMs ∧
         byteAt r 17 = flagNat d.half + 2 * flagNat d.endNotice) ∧
       byteAt r 18 = ch.state.code ∧ byteAt r 19 = flagNat (ch.state = .playing && !ch.due) ∧ byteAt r 20 = bankCode ch.bank ∧
       (ch.position ≤ 65535 → u16At r 21 = ch.position) ∧ (ch.remaining ≤ 65535 → u16At r 23 = ch.remaining) ∧
       (ch.passes ≤ 65535 → u16At r 25 = ch.passes) ∧ byteAt r 27 = flagNat ch.readyA ∧ byteAt r 28 = flagNat ch.readyB ∧
       byteAt r 29 = ch.fault.code) ∧
  (∀ (s : State) (tag : Byte) (c : ChannelIx) (bk : Bank), s.Listening → s.part.link.notices.length < 32 →
     let ch := s.part.ch c
     let i : Instr := .markBankReady tag [BitVec.ofNat 8 c.val, match bk with | .a => 1 | .b => 2]
     let other : Bank := match bk with | .a => .b | .b => .a
     (∀ big code : Byte, (31 < big.toNat ∨ code.toNat = 0 ∨ 2 < code.toNat) →
       exec (.markBankReady tag [big, code]) s = .next (s.withPart (s.part.answered 0xB3 tag [0x03]))) ∧
     (ch.defn = none → exec i s = .next (s.withPart (s.part.answered 0xB3 tag [0x05]))) ∧
     (∀ d, ch.defn = some d →
       (d.mode ≠ .pingpong → exec i s = .next (s.withPart (s.part.answered 0xB3 tag [0x05]))) ∧
       (d.mode = .pingpong → ch.state = .playing → ch.bank = some bk →
         exec i s = .next (s.withPart (s.part.answered 0xB3 tag [0x0B]))) ∧
       (d.mode = .pingpong → ¬ (ch.state = .playing ∧ ch.bank = some bk) →
         ¬ (ch.state = .starved ∧ (ch.bank = some other ∨
           (ch.bank = none ∧ bk = if d.firstBank = 2 then .b else .a))) →
         exec i s = .next (s.withPart ((s.part.modCh c fun ch => match bk with
           | .a => { ch with readyA := true }
           | .b => { ch with readyB := true }).answered 0xB3 tag [0x00, 0x01, BitVec.ofNat 8 ch.state.code]))) ∧
       (d.mode = .pingpong → ch.state = .starved →
         (ch.bank = some other ∨ (ch.bank = none ∧ bk = if d.firstBank = 2 then .b else .a)) →
         let resumed : Part := (s.part.modCh c fun ch => match bk with
           | .a => { ch with state := .playing, due := true, bank := some .a, position := d.aStart, remaining := d.aCount
                             readyA := false }
           | .b => { ch with state := .playing, due := true, bank := some .b, position := d.bStart, remaining := d.bCount
                             readyB := false }).noticed
           (if ch.bank = none then [] else [.channelEvent c d.fixture .bankFree (some other) ch.passes .none])
         (s.part.pathBusy ≠ none → exec i s = .next (s.withPart (resumed.answered 0xB3 tag [0x00, 0x00, 0x01]))) ∧
         ∃ q, exec .recordGrant (s.withPart (resumed.asked 0x33 tag)) = .next (s.withPart q) ∧
           exec i s = .next (s.withPart (q.replied 0x33 tag
             [0x00, flagNat (match bk with | .a => (q.ch c).readyA | .b => (q.ch c).readyB), BitVec.ofNat 8 (q.ch c).state.code])))))

/-- Pattern memory: WRITE_PATTERN's checks in their order and, once accepted, exactly its slots, none in the bank in play of a
channel (R90, R91); READ_PATTERN returns the slots as stored, up to slot 16,383, and changes nothing (R92). Of each record: when it
is well-formed (R89), which is `recordOk` of the checks (section 4.3, layout of section 11.3). -/
def Obligations.PatternMemoryReadsWhatWasWritten : Prop :=
  (∀ (s : State) (tag : Byte) (low high count : Byte), s.Listening →
    let first := low.toNat + 256 * high.toNat
    let n := count.toNat
    (n < 1 ∨ 64 < n ∨ 16383 < first → exec (.readPattern tag [low, high, count]) s = .next (s.withPart (s.part.answered 0xB5 tag [0x03]))) ∧
    (1 ≤ n → n ≤ 64 → first ≤ 16383 →
      ∃ d, exec (.readPattern tag [low, high, count]) s =
          .next (s.withPart (s.part.answered 0xB5 tag (0x00 :: BitVec.ofNat 8 (min n (16384 - first)) :: d))) ∧
        d.length = 16 * min n (16384 - first) ∧ ∀ k, k < d.length → d.getD k 0 = Pattern.read s.part.pattern (16 * first + k)) ∧
    (∀ data : List Byte, (n < 1 ∨ 64 < n ∨ data.length ≠ 16 * n) →
      exec (.writePattern tag ([low, high, count] ++ data)) s = .next (s.withPart (s.part.answered 0xB4 tag [0x02]))) ∧
    ∀ records : List (List Byte), (∀ r ∈ records, r.length = 16) →
      let c : Instr := .writePattern tag ([low, high, count] ++ records.flatten)
      (1 ≤ n → n ≤ 64 → records.length = n → 16384 < first + n →
        exec c s = .next (s.withPart (s.part.answered 0xB4 tag [0x03]))) ∧
      (1 ≤ n → n ≤ 64 → records.length = n → first + n ≤ 16384 → ∀ before bad after, records = before ++ bad :: after →
        (∀ r ∈ before, recordOk r = true) → recordOk bad = false →
        exec c s = .next (s.withPart (s.part.answered 0xB4 tag [0x03, BitVec.ofNat 8 before.length]))) ∧
      (1 ≤ n → n ≤ 64 → records.length = n → first + n ≤ 16384 → (∀ r ∈ records, recordOk r = true) →
        (∀ ch : ChannelIx, ∀ at_ k, (s.part.ch ch).inPlay = some (at_, k) → at_ < first + n → first < at_ + k →
          (∀ lower : ChannelIx, lower < ch → ∀ at_ k, (s.part.ch lower).inPlay = some (at_, k) →
            first + n ≤ at_ ∨ at_ + k ≤ first) →
          exec c s = .next (s.withPart (s.part.answered 0xB4 tag [0x0B, BitVec.ofNat 8 ch.val]))) ∧
        ((∀ ch : ChannelIx, ∀ at_ k, (s.part.ch ch).inPlay = some (at_, k) → first + n ≤ at_ ∨ at_ + k ≤ first) →
          Pattern.wf s.part.pattern = true →
          ∃ m, exec c s = .next (s.withPart ({ s.part with pattern := m }.answered 0xB4 tag [0x00])) ∧ Pattern.wf m = true ∧
            ∀ a, Pattern.read m a =
              if 16 * first ≤ a ∧ a < 16 * (first + n) then records.flatten.getD (a - 16 * first) 0
              else Pattern.read s.part.pattern a))) ∧
  ∀ r : List Byte,
    let b (k : Nat) : Nat := byteAt r k
    recordOk r = true ↔ match b 0 with
      | 3 => b 3 ≤ 1 ∧ b 4 ∈ [1, 2, 4, 8] ∧ b 5 ≤ 1 ∧ b 6 ≤ 1
      | 6 => b 3 ≤ 1
      | 9 => b 7 % 16 ≤ 8 ∧ b 7 / 16 ≤ 1 ∧ (b 7 / 16 = 0 → u32At r 3 ≤ 0x7FF) ∧ (b 7 / 16 = 1 → u32At r 3 ≤ 0x1FFFFFFF)
      | 10 => b 3 ≤ 1
      | code => code ≤ 12

/-- The request the record arbiter chooses: the lowest level, at equal level a SET step's before a channel's, then the lowest
number; it is granted only while the path is free, and the end of a transfer chooses again (section 4.4). That RECORD_GRANT runs the
operation the events run (log 26), that TRANSFER_END moves the clock to the transfer's end (log 2) and that it does nothing with a
free path (log 19) are the model's choices. -/
def Obligations.ArbiterChoosesByLevelKindAndNumber : Prop :=
  (∀ (p : Part) (f : FixtureIx), p.nextRecord = some (.setStep f) ↔
    ((p.fx f).setRecord.isSome = true ∧
      (∀ g, (p.fx g).setRecord.isSome = true →
        (p.fx f).run.priority < (p.fx g).run.priority ∨ ((p.fx f).run.priority = (p.fx g).run.priority ∧ f ≤ g)) ∧
      ∀ c v, (p.ch c).asks = some v → (p.fx f).run.priority ≤ v)) ∧
  (∀ (p : Part) (c : ChannelIx), p.nextRecord = some (.channel c) ↔
    ∃ v, (p.ch c).asks = some v ∧ (∀ d w, (p.ch d).asks = some w → v < w ∨ (v = w ∧ c ≤ d)) ∧
      ∀ g, (p.fx g).setRecord.isSome = true → v < (p.fx g).run.priority) ∧
  (∀ p : Part, p.nextRecord = none ↔ (∀ f, (p.fx f).setRecord = none) ∧ ∀ c, (p.ch c).asks = none) ∧
  ∀ s : State, s.part.powered = true →
    ((s.part.pathBusy ≠ none ∨ s.part.nextRecord = none) → exec .recordGrant s = .next s) ∧
    (s.part.pathBusy = none → exec .transferEnd s = .next s) ∧
    ∀ t, s.part.pathBusy = some t →
      let p := { s.part.advanceTo t with pathBusy := none }
      exec .transferEnd s = exec .recordGrant (s.withPart p) ∧
        (p.nextRecord = none → exec .transferEnd s = .next (s.withPart p))

/-- A SET step's record at its target, and the step's result: as given, clamped with CLAMPED, or turned away. The queue is then
empty, CONTINUE leaves the run as it is, and the path is busy for 5 µs (sections 2.2, 3.2 to 3.4, 4.4, 5.2 to 5.5 and 6.3). A supply
record acts on its supply in every state: a record at a live one may bring it from RAMP to ON, from ON to LIMIT and back, or trip
it. Where the moved threshold may or may not be passed already, and where a SUPPLY_LIMIT record both clears at-limit and finds its
timer spent, the statement holds of either outcome (log 7, 9). That an output in RAMP from OFF starts at 0 mV (log 28), that one
below 500 mV is not in regulation (log 8), that ON has no effect in TRIPPED or with a trip pending (log 14), and that a current held
at a limit stands below a raised one (log 29), are the model's readings. -/
def Obligations.SetRecordsReachTheirTargets : Prop :=
  ∀ (s : State) (f : FixtureIx) (i : InFlight) (r : List Byte), s.part.powered = true → s.part.pathBusy = none →
    s.part.nextRecord = some (.setStep f) → (s.part.fx f).run.state = .active → (s.part.fx f).run.policy = .cont →
    (s.part.fx f).queue = [] → (s.part.fx f).inflight = some i → i.step.body = .set r → i.progress = .plain →
    let x := s.part.fx f
    let now := s.part.clock
    let sets (e : StepEnd) (y : Fixture) : Prop :=
      exec .recordGrant s = .next (s.withPart ({ s.part with pathBusy := some (now + 5) }.modFx f fun _ =>
        y.withResult (y.recordFor i.step i.startedAt s.part.uptime e)))
    let setsFree (e : StepEnd) (y : Fixture) : Prop := ∃ k, exec .recordGrant s =
      .next (s.withPart ({ s.part with pathBusy := some (now + 5), freeIndex := k }.modFx f fun _ =>
        y.withResult (y.recordFor i.step i.startedAt s.part.uptime e)))
    let trips (e : StepEnd) : Prop := ∃ t, exec .recordGrant s = .next t ∧
      (t.part.fx f).supply.tripReason = .overcurrent ∧
      (t.part.fx f).supply.state = (if x.supply.below500 then .tripped else .discharge) ∧
      (t.part.fx f).run.haltReason = .supplyTrip ∧ (t.part.fx f).inflight = none ∧
      (t.part.fx f).log = x.log ++ [x.recordFor i.step i.startedAt s.part.uptime e]
    let passed : StepEnd := { verdict := .pass, reason := .none }
    let passedIf (same : Bool) : StepEnd := { verdict := .pass, reason := if same then .none else .clamped }
    (parseRecord r = some .none → sets passed x) ∧
    (∀ mv, parseRecord r = some (.aout0 mv) → sets (passedIf (mv ≤ 10000)) { x with outs := { x.outs with aout0 := min 10000 mv } }) ∧
    (∀ mv, parseRecord r = some (.aout1 mv) → sets (passedIf (mv ≤ 10000)) { x with outs := { x.outs with aout1 := min 10000 mv } }) ∧
    (∀ d, parseRecord r = some (.pwmDuty d) → sets (passedIf (d ≤ 64)) { x with outs := { x.outs with pwm :=
      if x.outs.pwm.enabled then { x.outs.pwm with pendingDuty := some (min 64 d) }
      else { x.outs.pwm with duty := min 64 d, pendingDuty := none } } }) ∧
    (∀ cfg, parseRecord r = some (.pwmCfg cfg true) → sets passed { x with outs := { x.outs with pwm :=
      if x.outs.pwm.enabled then { x.outs.pwm with pendingCfg := some cfg }
      else { cfg := cfg, duty := x.outs.pwm.pendingDuty.getD x.outs.pwm.duty, enabled := true, pendingCfg := none
             pendingDuty := none, periodStart := now } } }) ∧
    (∀ cfg, parseRecord r = some (.pwmCfg cfg false) → sets passed { x with outs := { x.outs with pwm :=
      { x.outs.pwm with cfg := cfg, duty := x.outs.pwm.pendingDuty.getD x.outs.pwm.duty, enabled := false, pendingCfg := none
                        pendingDuty := none } } }) ∧
    (∀ c : PulseCounts, parseRecord r = some (.pulseCfg c) → sets (passedIf (1 ≤ c.high && 1 ≤ c.low))
      { x with outs := { x.outs with pulse :=
        let raised : PulseCounts := { high := max 1 c.high, low := max 1 c.low, count := c.count }
        if x.outs.pulse.phase = .stopped then { x.outs.pulse with cur := raised, pending := none }
        else { x.outs.pulse with pending := some raised } } }) ∧
    (parseRecord r = some (.pulseRun true) → sets passed { x with outs := { x.outs with pulse :=
      if x.outs.pulse.phase = .stopped then { x.outs.pulse with done := 0, phase := .high, phaseStart := now }
      else x.outs.pulse } }) ∧
    (parseRecord r = some (.pulseRun false) → sets passed { x with outs := { x.outs with pulse :=
      if x.outs.pulse.phase = .stopped then x.outs.pulse
      else { x.outs.pulse with phase := .stopped, cur := x.outs.pulse.pending.getD x.outs.pulse.cur, pending := none } } }) ∧
    (∀ outs ins, parseRecord r = some (.lineDir outs ins) → x.capture.state = .idle →
      sets passed { x with outs := { x.outs with outEnable := outs, inEnable := ins } }) ∧
    (∀ mask levels, parseRecord r = some (.lineDrive mask levels) → x.capture.state = .idle →
      sets passed { x with outs := { x.outs with outLevel := (x.outs.outLevel &&& ~~~mask) ||| (levels &&& mask) } }) ∧
    (∀ id ext len data, parseRecord r = some (.canTx id ext len data) →
      (x.port.queue.length < 16 → sets passed { x with port := { x.port with queue :=
        x.port.queue ++ [{ id := id, extended := ext, length := len, data := data, attempts := 0 }] } }) ∧
      (16 ≤ x.port.queue.length → sets { verdict := .incomplete, reason := .txFull } x)) ∧
    (∀ mv, parseRecord r = some (.supplyVolts mv) →
      let target := if mv = 0 then 0 else min 18000 (max 3000 mv) / 10 * 10
      let u := x.supply
      let note := passedIf (target = mv)
      let moved (b : Bool) : Supply := { u with setpoint := target, inRegulation := b }
      ((u.state = .off ∨ u.state = .tripped ∨ (u.below500 = true ∧ u.state ≠ .ramp)) →
        sets note { x with supply := moved (decide (target = 0) || (decide (target = u.setpoint) && u.inRegulation)) }) ∧
      ((u.state = .on ∨ u.state = .limit ∨ u.state = .discharge) → ∃ b, (target = 0 → b = true) ∧
        (target ≠ 0 → target ≤ u.setpoint → u.inRegulation = true → u.below500 = false → b = true) ∧
        (u.setpoint ≤ target → target ≠ 0 → u.inRegulation = false → b = false) ∧ setsFree note { x with supply := moved b }) ∧
      (u.state = .ramp → u.inRegulation = false → u.atLimit = false →
        (target = 0 → sets note { x with supply := { moved true with state := .on, since := now } }) ∧
        (target ≠ 0 → (u.setpoint ≤ target ∨ u.below500 = true) → sets note { x with supply := moved false }) ∧
        (target ≠ 0 → target < u.setpoint → u.below500 = false →
          setsFree note { x with supply := moved false } ∨
          setsFree note { x with supply := { moved true with state := .on, since := now } }))) ∧
    (∀ ma ms slew, parseRecord r = some (.supplyLimit ma ms slew) →
      let limit := min 5000 (max 50 ma) / 10 * 10
      let time := min 1000 (max 1 ms)
      let rate := min 10000 (max 100 slew) / 100 * 100
      let u := x.supply
      let note := passedIf (limit = ma && time = ms && rate = slew)
      let stored : Supply := { u with limit := limit, limitTime := time, slew := rate }
      let soft (ma : Nat) : Nat := max 50 (ma / 4 / 10 * 10)
      let limiting : Supply := { stored with atLimit := true, state := .limit, since := now }
      let back : Supply := { stored with atLimit := false, state := .on, since := now }
      ((u.state = .off ∨ u.state = .discharge ∨ u.state = .tripped) → sets note { x with supply := stored }) ∧
      (u.state = .ramp →
        (u.atLimit = true → soft u.limit < soft limit → sets note { x with supply := { stored with atLimit := false } }) ∧
        (u.atLimit = true → soft limit ≤ soft u.limit → sets note { x with supply := stored }) ∧
        (u.atLimit = false → soft u.limit ≤ soft limit → sets note { x with supply := stored }) ∧
        (u.atLimit = false → soft limit < soft u.limit →
          setsFree note { x with supply := stored } ∨ setsFree note { x with supply := { stored with atLimit := true } })) ∧
      (u.state = .on →
        ((u.limit ≤ limit ∨ u.range = .low) → sets note { x with supply := stored }) ∧
        (limit < u.limit → u.range = .high →
          setsFree note { x with supply := stored } ∨ setsFree note { x with supply := limiting })) ∧
      (u.state = .limit →
        (limit ≤ u.limit → now < u.since + time * 1000 → sets note { x with supply := stored }) ∧
        (u.limit < limit → now < u.since + time * 1000 → sets note { x with supply := back }) ∧
        (u.limit < limit → u.since + time * 1000 ≤ now → setsFree note { x with supply := back } ∨ trips note) ∧
        (limit ≤ u.limit → u.since + time * 1000 ≤ now → trips note))) ∧
    (parseRecord r = some (.supplyState true) →
      let u := x.supply
      let startable : Prop := u.state = .off ∨ (u.state = .discharge ∧ u.tripReason = .none)
      (startable → s.part.rack.level ≠ .normal → sets { verdict := .incomplete, reason := .rackLow } x) ∧
      (startable → s.part.rack.level = .normal → u.setpoint ≠ 0 → (u.state = .off ∨ u.inRegulation = false) →
        sets passed { x with supply := { u with state := .ramp, since := now, inRegulation := false } }) ∧
      (startable → s.part.rack.level = .normal → (u.setpoint = 0 ∨ (u.state = .discharge ∧ u.inRegulation = true)) →
        u.atLimit = false → sets passed { x with supply := { u with state := .on, since := now, inRegulation := true } }) ∧
      (¬ startable → sets passed x)) ∧
    (parseRecord r = some (.supplyState false) →
      ((x.supply.state = .off ∨ x.supply.state = .discharge ∨ x.supply.state = .tripped) → sets passed x) ∧
      (x.supply.live = true → x.supply.range = .high → sets passed { x with supply := { x.supply with
        state := if x.supply.below500 then .off else .discharge, tripReason := .none, since := now, atLimit := false } }))

/-- A channel's record, and its dwells: a grant reads the record at the position, applies it and begins its dwell; a full transmit
queue, or a SUPPLY_STATE ON under a low rack, faults the channel; the end of a dwell makes the next record due or ends the bank as
the mode says. No step waits for the channel, and a path that is busy afterwards keeps the next record waiting (sections 4.2 to
4.4). That DWELL_EXPIRY moves the clock to the dwell's end (log 2), that it does nothing for a due channel (log 19) and that the
position after slot 16,383 is 16,384 (log 12) are the model's choices. -/
def Obligations.ChannelsPlayTheirBanks : Prop :=
  ∀ (s : State) (c : ChannelIx) (d : ChannelDef) (bk : Bank), s.part.powered = true → (s.part.ch c).defn = some d →
    (s.part.ch c).state = .playing → (s.part.ch c).bank = some bk → (s.part.fx d.fixture).inflight = none →
    let ch := s.part.ch c
    let start (k : Bank) : Nat := match k with | .a => d.aStart | .b => d.bStart
    let count (k : Bank) : Nat := match k with | .a => d.aCount | .b => d.bCount
    let other : Bank := match bk with | .a => .b | .b => .a
    let otherReady : Bool := match bk with | .a => ch.readyB | .b => ch.readyA
    let event (k : ChannelEvent) (of : Bank) (passes : Nat) : Notice := .channelEvent c d.fixture k (some of) passes .none
    (s.part.pathBusy = none → s.part.nextRecord = some (.channel c) →
      let r := Pattern.slot s.part.pattern ch.position
      let dwell := u16At r 1 * if d.unitMs then 1000 else 100
      let began (p : Part) : Part :=
        let q := { p with pathBusy := some (s.part.clock + 5) }.modCh c fun ch =>
          { ch with position := ch.position + 1, remaining := ch.remaining - 1, due := false, dwellEnd := s.part.clock + dwell }
        if d.half = true ∧ 1 ≤ count bk / 2 ∧ ch.remaining - 1 = count bk / 2 then q.post (event .half bk ch.passes) else q
      (parseRecord r = some .none → u16At r 1 ≠ 0 → exec .recordGrant s = .next (s.withPart (began s.part))) ∧
      (∀ mv, parseRecord r = some (.aout0 mv) → u16At r 1 ≠ 0 → exec .recordGrant s = .next (s.withPart (began
        (s.part.modFx d.fixture fun x => { x with outs := { x.outs with aout0 := min 10000 mv } })))) ∧
      (∀ id ext len data, parseRecord r = some (.canTx id ext len data) → 16 ≤ (s.part.fx d.fixture).port.queue.length →
        exec .recordGrant s = .next (s.withPart (({ s.part with pathBusy := some (s.part.clock + 5) }.modCh c fun ch =>
          { ch with state := .faulted, fault := .txFull, due := false, bank := none }).post
          (.channelEvent c d.fixture .fault (some bk) ch.passes .txFull)))) ∧
      (parseRecord r = some (.supplyState true) → (s.part.fx d.fixture).supply.state = .off → s.part.rack.level ≠ .normal →
        exec .recordGrant s = .next (s.withPart (({ s.part with pathBusy := some (s.part.clock + 5) }.modCh c fun ch =>
          { ch with state := .faulted, fault := .rackLow, due := false, bank := none }).post
          (.channelEvent c d.fixture .fault (some bk) ch.passes .rackLow))))) ∧
    (ch.due = true → exec (.dwellExpiry c) s = .next s) ∧
    (ch.due = false → s.part.pathBusy ≠ none →
      let p := s.part.advanceTo ch.dwellEnd
      let ends (q : Part) : Prop := exec (.dwellExpiry c) s = .next (s.withPart q)
      let passes := if d.mode = .once then 1 else min 65535 (ch.passes + 1)
      let told (q : Part) : Part := if d.endNotice then q.post (event .endOfBank bk passes) else q
      let finished : Prop := ends ((told (p.modCh c fun ch =>
        { ch with passes := passes, state := .done, due := false, bank := none })).post (event .done bk passes))
      let entered (into : Bank) (q : Part) : Part := q.modCh c fun ch =>
        { ch with passes := passes, state := .playing, due := true, bank := some into, position := start into, remaining := count into }
      (0 < ch.remaining → ends (p.modCh c fun ch => { ch with due := true })) ∧
      (ch.remaining = 0 → d.mode = .once → finished) ∧
      (ch.remaining = 0 → d.mode = .circular → d.repeats ≠ 0 → d.repeats ≤ passes → finished) ∧
      (ch.remaining = 0 → d.mode = .circular → (d.repeats = 0 ∨ passes < d.repeats) → ends (told (entered bk p))) ∧
      (ch.remaining = 0 → d.mode = .pingpong → otherReady = true → ends ((told ((entered other p).modCh c fun ch =>
        match bk with | .a => { ch with readyB := false } | .b => { ch with readyA := false })).post
        (event .bankFree bk passes))) ∧
      (ch.remaining = 0 → d.mode = .pingpong → otherReady = false → ends ((told (p.modCh c fun ch =>
        { ch with passes := passes, state := .starved, due := false })).post (event .starved other passes))))

/-- The dimmer's period starts and waveform, and the pulse generator's phase boundaries, each at its time (sections 5.3 and 5.4).
That each event moves the clock to its time (log 2), and that it does nothing while its timer stands (log 19), are the model's
choices. -/
def Obligations.DimmerAndPulsesKeepTheirTimes : Prop :=
  ∀ (s : State) (f : FixtureIx), s.part.powered = true →
    let o := (s.part.fx f).outs
    let w := o.pwm
    let g := o.pulse
    let tick := (if w.cfg.slowBase then 100 else 1) * w.cfg.divider
    let cur := g.pending.getD g.cur
    let done := min 65535 (g.done + 1)
    (w.enabled = false → exec (.periodStart f) s = .next s ∧ s.part.pwmPin f = w.cfg.activeLow) ∧
    (w.enabled = true →
      (s.part.clock - w.periodStart < w.duty * tick → s.part.pwmPin f = !w.cfg.activeLow) ∧
      (64 ≤ w.duty → s.part.pwmPin f = !w.cfg.activeLow) ∧
      (w.duty < 64 → w.duty * tick ≤ s.part.clock - w.periodStart → s.part.pwmPin f = w.cfg.activeLow) ∧
      exec (.periodStart f) s = .next (s.withPart ((s.part.advanceTo (w.periodStart + 64 * tick)).modFx f fun x =>
        { x with outs := { x.outs with pwm := { w with
            cfg := w.pendingCfg.getD w.cfg, duty := w.pendingDuty.getD w.duty, pendingCfg := none, pendingDuty := none
            periodStart := w.periodStart + 64 * tick } } }))) ∧
    s.part.pulsePin f = decide (g.phase = .high) ∧
    (g.phase = .stopped → exec (.phaseBoundary f) s = .next s) ∧
    (g.phase = .high →
      exec (.phaseBoundary f) s = .next (s.withPart ((s.part.advanceTo (g.phaseStart + g.cur.high)).modFx f fun x =>
        { x with outs := { x.outs with pulse := {
            cur := cur, pending := none, done := done, phaseStart := g.phaseStart + g.cur.high
            phase := if cur.count ≠ 0 ∧ cur.count ≤ done then .stopped else .low } } }))) ∧
    (g.phase = .low →
      exec (.phaseBoundary f) s = .next (s.withPart ((s.part.advanceTo (g.phaseStart + g.cur.low)).modFx f fun x =>
        { x with outs := { x.outs with pulse := { g with
            cur := cur, pending := none, phase := .high, phaseStart := g.phaseStart + g.cur.low } } })))

/-- A line's pin: nothing hears of it at an idle fixture or a part held in reset (log 18); a WAIT_FOR LINE passes when its line
comes to its level; a capture unit starts at the first rising edge and counts the others; past 16,000,000 µs its step ends NO_EDGES.
The queue is then empty (sections 2.5, 2.6, 5.5 and 5.6). That the overflow moves the clock to its time (log 2), and that it does
nothing at a unit that does not count (log 19), are the model's choices. -/
def Obligations.LinesAreReadAndTimed : Prop :=
  ∀ (s : State) (f : FixtureIx),
    let x := s.part.fx f
    (∀ (o : Outputs) (l : LineIx),
      o.reads l = (o.inEnable.getLsbD l.val && if o.outEnable.getLsbD l.val then o.outLevel.getLsbD l.val else o.pins.getLsbD l.val)) ∧
    (∀ (l : LineIx) (v : Bool), ∃ pins : BitVec 8, (∀ k : LineIx, pins.getLsbD k.val = if k = l then v else x.outs.pins.getLsbD k.val) ∧
      let moved := s.part.modFx f fun x => { x with outs := { x.outs with pins := pins } }
      let after : Outputs := { x.outs with pins := pins }
      ((s.part.powered = false ∨ (x.inflight = none ∧ x.capture.state = .idle)) →
        exec (.lineLevelChange f l v) s = .next (s.withPart moved)) ∧
      (s.part.powered = true → x.run.state = .active → x.queue = [] → ∀ i k level ms, x.inflight = some i → i.progress = .plain →
        i.step.body = .waitFor (.line k level) ms →
        (x.outs.reads k ≠ level → after.reads k = level →
          exec (.lineLevelChange f l v) s = .next (s.withPart (moved.modFx f fun x =>
            x.withResult (x.recordFor i.step i.startedAt s.part.uptime { verdict := .pass, reason := .none })))) ∧
        ((after.reads k = x.outs.reads k ∨ after.reads k ≠ level) → exec (.lineLevelChange f l v) s = .next (s.withPart moved))) ∧
      (s.part.powered = true → ∀ i pr n k lo hi g ms, x.inflight = some i → i.progress = .timing pr →
        i.step.body = .measure n k lo hi g ms →
        ((x.outs.reads x.capture.line = true ∨ after.reads x.capture.line = false) →
          exec (.lineLevelChange f l v) s = .next (s.withPart moved)) ∧
        (x.outs.reads x.capture.line = false → after.reads x.capture.line = true →
          (x.capture.state = .armed → exec (.lineLevelChange f l v) s = .next (s.withPart (moved.modFx f fun x =>
            { x with capture := { x.capture with state := .counting, periods := 0, total := 0, high := 0 } }))) ∧
          (x.capture.state = .counting → x.capture.total ≤ 16000000 → x.capture.periods + 1 < x.capture.window →
            exec (.lineLevelChange f l v) s = .next (s.withPart (moved.modFx f fun x =>
              { x with capture := { x.capture with periods := x.capture.periods + 1 } }))) ∧
          (x.capture.state = .counting → x.capture.total ≤ 16000000 → x.capture.periods + 1 = x.capture.window →
            x.run.state = .active → x.run.policy = .cont → x.queue = [] → ∀ line q w, pr.body = .timing line q w →
            let u := x.capture
            let value : Int := match q with
              | .periodUs => halfUp u.total u.window
              | .highUs => halfUp u.high u.window
              | .dutyPermille => halfUp (1000 * u.high) u.total
              | .freqMhz => halfUp (1000000000 * u.window) u.total
            exec (.lineLevelChange f l v) s = .next (s.withPart (moved.modFx f fun x =>
              { x with capture := { x.capture with state := .idle, periods := u.periods + 1 } }.withResult
                (x.recordFor i.step i.startedAt s.part.uptime
                  { verdict := (judgeLimits value lo hi g).1, reason := (judgeLimits value lo hi g).2, value := some value
                    unit := some pr.unit })))))) ∧
    (s.part.powered = true → x.capture.state ≠ .counting → exec (.captureOverflow f) s = .next s) ∧
    (s.part.powered = true → x.capture.state = .counting → x.run.state = .active → x.run.policy = .cont → x.queue = [] →
      ∀ i pr, x.inflight = some i → i.progress = .timing pr →
      let p := s.part.advanceTo (s.part.clock + (16000000 - x.capture.total))
      exec (.captureOverflow f) s = .next (s.withPart (p.modFx f fun x =>
        { x with capture := { x.capture with state := .idle } }.withResult
          (x.recordFor i.step i.startedAt p.uptime { verdict := .incomplete, reason := .noEdges })))))

/-- A frame's reception: an INACTIVE port, and one for which the frame was already under way, notice nothing. A data frame is
acknowledged, updates every enabled entry it matches, and ends a step that waits on one of them. A remote frame is acknowledged and
a damaged one answered with an error signal alone. A transmit attempt begins on the head of an ACTIVE port with none under way, and
ends by success, by lost arbitration, which is not counted, or by a counted failure, of which the eighth gives the frame up with
TX_GIVEN_UP. An attempt that ran out after a flush leaves no trace (sections 6.2, 6.3, 6.5 and 8.5). That attempts and frames come
from outside (log 17), that a frame says whether it was under way (log 20), and that an attempt which starts or ends when none can
changes nothing (log 19), are the model's choices, and so is that an attempt of a port that went INACTIVE at once still ends (log
36). -/
def Obligations.FramesReachWatchesAndAttemptsEnd : Prop :=
  (∀ (s : State) (f : FixtureIx) (fr : BusFrame), s.part.powered = true →
     let x := s.part.fx f
     let hit (w : Watch) : Prop := w.enabled = true ∧ w.extended = fr.extended ∧
       ∀ k : Fin 29, w.mask.getLsbD k.val = true → fr.id.getLsbD k.val = w.id.getLsbD k.val
     let length := min 8 fr.dlc.toNat
     let caught (w : Watch) : Watch := { w with
       count := min 65535 (w.count + 1), length := length
       data := fr.data.take length ++ List.replicate (8 - (fr.data.take length).length) 0, lastTime := s.part.uptime, fresh := true }
     let answers (r : BusResponse) : Part := s.part.modFx f fun x => { x with port := { x.port with response := r } }
     ((x.port.state = .inactive ∨ fr.underWay = true ∨ fr.kind = .own) → exec (.frameReceived f fr) s = .next s) ∧
     (x.port.state ≠ .inactive → fr.underWay = false →
       (fr.kind = .damaged → exec (.frameReceived f fr) s = .next (s.withPart (answers .error))) ∧
       (fr.kind = .remote → exec (.frameReceived f fr) s = .next (s.withPart (answers .acknowledge))) ∧
       (fr.kind = .data → ∃ table : Vector Watch 8,
         (∀ e : Fin 8, (hit (x.watchOf e) → table[e] = caught (x.watchOf e)) ∧ (¬ hit (x.watchOf e) → table[e] = x.watchOf e)) ∧
         let heard := (answers .acknowledge).modFx f fun x => { x with watch := table }
         ((∀ e, x.watchedEntry = some e → ¬ hit (x.watchOf e)) → exec (.frameReceived f fr) s = .next (s.withPart heard)) ∧
         (x.run.state = .active → x.run.policy = .cont → x.queue = [] → ∀ i e, x.inflight = some i → hit (x.watchOf e) →
           let ends (v : StepEnd) : Prop := exec (.frameReceived f fr) s = .next (s.withPart (heard.modFx f fun x =>
             x.withResult (x.recordFor i.step i.startedAt s.part.uptime v)))
           (∀ ms, i.progress = .plain → i.step.body = .waitFor (.frame e) ms → ends { verdict := .pass, reason := .none }) ∧
           (∀ pr st w sg num den off n k lo hi g ms, i.progress = .frameField pr →
             pr.body = .frameField e st w sg num den off → i.step.body = .measure n k lo hi g ms →
             let value := fieldValue (fieldRaw (table[e]).data st w sg) num den off
             ends { verdict := (judgeLimits value lo hi g).1, reason := (judgeLimits value lo hi g).2, value := some value
                    unit := some pr.unit }))))) ∧
  (∀ (s : State) (f : FixtureIx), s.part.powered = true →
     let t := (s.part.fx f).port
     let put (v : Port) : Part := s.part.modFx f fun x => { x with port := v }
     (t.state = .active → t.queue ≠ [] → t.attempt = .none →
       exec (.attemptStart f) s = .next (s.withPart (put { t with attempt := .head }))) ∧
     ((t.state ≠ .active ∨ t.queue = [] ∨ t.attempt ≠ .none) → exec (.attemptStart f) s = .next s) ∧
     (t.attempt = .none → ∀ o, exec (.attemptEnd f o) s = .next s) ∧
     (∀ fr, t.attempt = .orphan fr → ∀ o, exec (.attemptEnd f o) s = .next (s.withPart (put { t with attempt := .none }))) ∧
     (t.attempt = .head → ∀ h rest, t.queue = h :: rest →
       exec (.attemptEnd f .success) s = .next (s.withPart (put { t with queue := rest, attempt := .none })) ∧
       exec (.attemptEnd f .lostArbitration) s = .next (s.withPart (put { t with attempt := .none })) ∧
       ∀ o, (o = .noAcknowledge ∨ o = .busError) →
         (h.attempts + 1 < 8 → exec (.attemptEnd f o) s = .next (s.withPart (put
           { t with queue := { h with attempts := h.attempts + 1 } :: rest, attempt := .none, response := .error }))) ∧
         (8 ≤ h.attempts + 1 → exec (.attemptEnd f o) s = .next (s.withPart
           ((put { t with queue := rest, attempt := .none, response := .error }).post (.txGivenUp f h.id h.extended))))))

/-- DEFINE_WATCH: its checks in their order, the entry with a clear capture, and the step that waits on an entry now disabled. The
30 bytes of READ_WATCH. DEFINE_PROBE: its checks in their order and the definition it keeps. READ_PROBE's report (sections 6.5, 7.1
and 11.5). That it gives a fixed point's own span, and of an undefined entry the number asked for, are the model's choices (log 22).
-/
def Obligations.WatchesAndProbesAreDefinedAndRead : Prop :=
  (∀ (s : State) (tag : Byte) (f : FixtureIx), s.Listening →
     let x := s.part.fx f
     (∀ payload : List Byte, payload.length = 12 → payload.getD 0 0 = BitVec.ofNat 8 f.val →
       let c : Instr := .defineWatch tag payload
       let enabled : Bool := byteAt payload 11 == 1
       let fieldsOk : Prop := byteAt payload 1 ≤ 7 ∧ byteAt payload 10 ≤ 1 ∧ byteAt payload 11 ≤ 1 ∧
         u32At payload 2 ≤ (if byteAt payload 10 = 0 then 0x7FF else 0x1FFFFFFF) ∧ u32At payload 6 ≤ 0x1FFFFFFF
       (s.part.isFitted f = false → exec c s = .next (s.withPart (s.part.answered 0xC0 tag [0x04]))) ∧
       (s.part.isFitted f = true → ¬ fieldsOk → exec c s = .next (s.withPart (s.part.answered 0xC0 tag [0x03]))) ∧
       (s.part.isFitted f = true → fieldsOk → ∀ e : Fin 8, byteAt payload 1 = e.val →
         let put (p : Part) : Part := p.modWatch f e fun _ =>
           { enabled := enabled, extended := byteAt payload 10 == 1, id := BitVec.ofNat 29 (u32At payload 2)
             mask := BitVec.ofNat 29 (u32At payload 6), count := 0, length := 0, data := [0, 0, 0, 0, 0, 0, 0, 0], lastTime := 0
             fresh := false }
         ((enabled = true ∨ x.watchedEntry ≠ some e) →
           exec c s = .next (s.withPart ((put s.part).answered 0xC0 tag [0x00]))) ∧
         (enabled = false → x.run.state = .active → x.run.policy = .cont → x.queue = [] → ∀ i, x.inflight = some i →
           let ends (r : Reason) : Prop := exec c s = .next (s.withPart (((put s.part).modFx f fun x =>
             x.withResult (x.recordFor i.step i.startedAt s.part.uptime { verdict := .incomplete, reason := r })).answered
             0xC0 tag [0x00]))
           (∀ ms, i.progress = .plain → i.step.body = .waitFor (.frame e) ms → ends .watchDisabled) ∧
           (∀ pr st w sg num den off, i.progress = .frameField pr → pr.body = .frameField e st w sg num den off →
             ends .undefinedProbe)))) ∧
     (s.part.isFitted f = true → ∀ e : Fin 8, let w := x.watchOf e
       ∃ d, exec (.readWatch tag [BitVec.ofNat 8 f.val, BitVec.ofNat 8 e.val]) s =
           .next (s.withPart (s.part.answered 0xC1 tag (0x00 :: d))) ∧ d.length = 30 ∧
         byteAt d 0 = flagNat w.enabled ∧ byteAt d 1 = flagNat w.extended ∧ u32At d 2 = w.id.toNat ∧ u32At d 6 = w.mask.toNat ∧
         (w.count ≤ 65535 → u16At d 10 = w.count) ∧ (w.length ≤ 8 → byteAt d 12 = w.length) ∧
         (w.data.length = 8 → (d.drop 13).take 8 = w.data) ∧ u32At d 21 = w.lastTime.toNat ∧ byteAt d 25 = flagNat w.fresh ∧
         byteAt d 26 = x.port.state.code ∧ byteAt d 27 = (if x.port.state = .inactive then 255 else x.run.busRate.code) ∧
         (x.port.queue.length ≤ 16 → byteAt d 28 = x.port.queue.length) ∧ (x.port.queue = [] → byteAt d 29 = 255) ∧
         ∀ h rest, x.port.queue = h :: rest → h.attempts ≤ 7 → byteAt d 29 = h.attempts) ∧
     (s.part.isFitted f = false → ∀ e : Byte,
       exec (.readWatch tag [BitVec.ofNat 8 f.val, e]) s = .next (s.withPart (s.part.answered 0xC1 tag [0x04]))) ∧
     (s.part.isFitted f = true → ∀ e : Byte, 7 < e.toNat →
       exec (.readWatch tag [BitVec.ofNat 8 f.val, e]) s = .next (s.withPart (s.part.answered 0xC1 tag [0x03])))) ∧
  (∀ (s : State) (tag : Byte) (n : ProbeIx), s.Listening →
     (∀ payload : List Byte, payload.length = 16 →
       let c : Instr := .defineProbe tag payload
       let b (k : Nat) : Nat := byteAt payload k
       let kindOk : Prop := match b 1 with
         | 1 => b 4 ≤ 11 ∧ b 5 ≤ 1 ∧ (b 5 = 0 → b 6 ≤ 15) ∧ b 7 ∈ [1, 2, 4, 8, 16, 32, 64] ∧
             (b 4 ≤ 7 → -2000000 ≤ s32At payload 8 ∧ s32At payload 8 < s32At payload 12 ∧ s32At payload 12 ≤ 2000000)
         | 2 => b 4 ≤ 7 ∧ b 5 ≤ 3 ∧ 1 ≤ b 6 ∧ b 6 ≤ 16
         | _ => b 4 ≤ 7 ∧ b 5 ≤ 63 ∧ 1 ≤ b 6 ∧ b 6 ≤ 32 ∧ b 5 + b 6 ≤ 64 ∧ b 7 ≤ 1 ∧ 1 ≤ u16At payload 10 ∧
             u16At payload 10 ≤ 32767
       ((127 < b 0 ∨ b 1 = 0 ∨ 3 < b 1) → exec c s = .next (s.withPart (s.part.answered 0xD0 tag [0x03]))) ∧
       (b 0 ≤ 127 → 1 ≤ b 1 → b 1 ≤ 3 → (∀ f : FixtureIx, b 2 = f.val → s.part.isFitted f = false) →
         exec c s = .next (s.withPart (s.part.answered 0xD0 tag [0x04]))) ∧
       (b 0 = n.val → 1 ≤ b 1 → b 1 ≤ 3 → ∀ f : FixtureIx, b 2 = f.val → s.part.isFitted f = true →
         (¬ (b 3 ≤ 15 ∧ kindOk) → exec c s = .next (s.withPart (s.part.answered 0xD0 tag [0x03]))) ∧
         (b 3 ≤ 15 → kindOk → s.part.probeInUse n = true → exec c s = .next (s.withPart (s.part.answered 0xD0 tag [0x0B]))) ∧
         (b 3 ≤ 15 → kindOk → s.part.probeInUse n = false →
           ∃ d : Probe, exec c s = .next (s.withPart ({ s.part with probes := s.part.probes.set n.val (some d) n.isLt }.answered
               0xD0 tag [0x00])) ∧
             d.fixture = f ∧ d.unit = b 3 ∧
             match d.body with
             | .analog point settle samples low high => b 1 = 1 ∧ point.val = b 4 ∧ samples = b 7 ∧ low = s32At payload 8 ∧
                 high = s32At payload 12 ∧ settle = if b 5 = 0 then .fixed (b 6) else .ready
             | .timing line q w => b 1 = 2 ∧ line.val = b 4 ∧ q.code = b 5 ∧ w = b 6
             | .frameField e st w sg num den off => b 1 = 3 ∧ e.val = b 4 ∧ st = b 5 ∧ w = b 6 ∧ sg = (b 7 == 1) ∧
                 num = s16At payload 8 ∧ den = u16At payload 10 ∧ off = s32At payload 12))) ∧
     (s.part.probeInUse n = true ↔ ∃ f i samples lower upper guard timeout, (s.part.fx f).inflight = some i ∧
       i.step.body = .measure n samples lower upper guard timeout) ∧
     (∀ big : Byte, 127 < big.toNat → exec (.readProbe tag [big]) s = .next (s.withPart (s.part.answered 0xD1 tag [0x03]))) ∧
     ∃ r, exec (.readProbe tag [BitVec.ofNat 8 n.val]) s = .next (s.withPart (s.part.answered 0xD1 tag (0x00 :: r))) ∧
       r.length = 18 ∧ byteAt r 0 = flagNat (s.part.probe n).isSome ∧ byteAt r 17 = flagNat (s.part.probeInUse n) ∧
       byteAt r 1 = n.val ∧ (s.part.probe n = none → (r.drop 2).take 15 = List.replicate 15 0) ∧
       ∀ d, s.part.probe n = some d → byteAt r 3 = d.fixture.val ∧ (d.unit ≤ 15 → byteAt r 4 = d.unit) ∧
         match d.body with
         | .analog point settle samples low high => byteAt r 2 = 1 ∧ byteAt r 5 = point.val ∧
             (match settle with
               | .fixed k => byteAt r 6 = 0 ∧ (k ≤ 15 → byteAt r 7 = k)
               | .ready => byteAt r 6 = 1 ∧ byteAt r 7 = 0) ∧
             (samples ≤ 64 → byteAt r 8 = samples) ∧
             (point.val ≤ 7 → -2000000 ≤ low → low ≤ 2000000 → s32At r 9 = low) ∧
             (point.val ≤ 7 → -2000000 ≤ high → high ≤ 2000000 → s32At r 13 = high) ∧
             (7 < point.val → s32At r 9 = 0 ∧
               s32At r 13 = if point = 8 then 20000 else if point = 9 then 5000000 else 10000)
         | .timing line q w => byteAt r 2 = 2 ∧ byteAt r 5 = line.val ∧ byteAt r 6 = q.code ∧ (w ≤ 16 → byteAt r 7 = w) ∧
             (r.drop 8).take 9 = List.replicate 9 0
         | .frameField e st w sg num den off => byteAt r 2 = 3 ∧ byteAt r 5 = e.val ∧ (st ≤ 63 → byteAt r 6 = st) ∧
             (w ≤ 32 → byteAt r 7 = w) ∧ byteAt r 8 = flagNat sg ∧ (-32768 ≤ num → num ≤ 32767 → s16At r 9 = num) ∧
             (den ≤ 32767 → u16At r 11 = den) ∧
             (-2147483648 ≤ off → off ≤ 2147483647 → s32At r 13 = off))

/-- Lends that begin: LEND_MATRIX and a rise of the hold line are granted at once with no burst in progress, and wait for its end
otherwise; the grant raises the acknowledge line and posts MATRIX_EVENT (section 7.5). That LEND_GRANT runs the same operation and
does nothing with no lend pending (log 26, 19), that the line moves at a part held in reset too (log 18), and that a rise at a line
already high changes nothing (log 16), are the model's choices. -/
def Obligations.LendsAreGrantedBetweenBursts : Prop :=
  ∀ (s : State) (tag : Byte),
    let l := s.part.lend
    let lent (p : Part) (src : LendSource) (limit : Nat) : Part :=
      { p with lend := { p.lend with matrix := .lent src limit s.part.clock } }
    let pending (p : Part) (src : LendSource) (limit : Nat) : Part := { p with lend := { p.lend with matrix := .pending src limit } }
    (s.Listening → s.part.link.notices.length < 32 → ∀ low high : Byte,
      let ms := low.toNat + 256 * high.toNat
      let c : Instr := .lendMatrix tag [low, high]
      ((ms < 100 ∨ 10000 < ms) → exec c s = .next (s.withPart (s.part.answered 0xD2 tag [0x03]))) ∧
      (100 ≤ ms → ms ≤ 10000 → l.matrix ≠ .owned → exec c s = .next (s.withPart (s.part.answered 0xD2 tag [0x0B]))) ∧
      (100 ≤ ms → ms ≤ 10000 → l.matrix = .owned → s.part.conv.burst = none →
        exec c s = .next (s.withPart (((lent s.part .request ms).noticed [.matrixEvent .lent .request ms]).answered
          0xD2 tag [0x00, 0x02]))) ∧
      (100 ≤ ms → ms ≤ 10000 → l.matrix = .owned → s.part.conv.burst ≠ none →
        exec c s = .next (s.withPart ((pending s.part .request ms).answered 0xD2 tag [0x00, 0x01])))) ∧
    (l.holdLine = true → exec .holdLineRise s = .next s) ∧
    (l.holdLine = false →
      let up (p : Part) : Part := { p with lend := { p.lend with holdLine := true } }
      ((s.part.powered = false ∨ l.holdBlocked = true) → exec .holdLineRise s = .next (s.withPart (up s.part))) ∧
      (s.part.powered = true → l.holdBlocked = false →
        (l.matrix = .owned → s.part.conv.burst = none →
          exec .holdLineRise s = .next (s.withPart ((lent (up s.part) .hold l.holdLimit).post
            (.matrixEvent .lent .hold l.holdLimit)))) ∧
        (l.matrix = .owned → s.part.conv.burst ≠ none →
          exec .holdLineRise s = .next (s.withPart (pending (up s.part) .hold l.holdLimit))) ∧
        (∀ limit at_, (l.matrix = .pending .request limit ∨ l.matrix = .lent .request limit at_) →
          exec .holdLineRise s = .next (s.withPart { up s.part with lend := { l with holdLine := true, holdBlocked := true } })))) ∧
    (s.part.powered = true →
      (∀ src limit, l.matrix = .pending src limit →
        (s.part.conv.burst = none → exec .lendGrant s =
          .next (s.withPart ((lent s.part src limit).post (.matrixEvent .lent src limit)))) ∧
        (s.part.conv.burst ≠ none → exec .lendGrant s = .next s)) ∧
      ((l.matrix = .owned ∨ ∃ src limit at_, l.matrix = .lent src limit at_) → exec .lendGrant s = .next s)) ∧
    (s.part.acknowledgeLine = true ↔ s.part.powered = true ∧ ∃ src limit at_, l.matrix = .lent src limit at_)

/-- Lends that end: by RECLAIM_MATRIX, by a drop of the hold line, or by their limit, each with its notice and the lend's duration;
the last input is emptied, every QUIESCENT step hears of it, and the reference check that has waited is served first. A reclaimed or
overrun hold line stays blocked until it drops; a pending lend is cancelled without a notice (section 7.5). That the limit's expiry
moves the clock to it and does nothing while no lend runs (log 2, 19), that the line moves at a part held in reset too (log 18), and
that a drop at a line already low changes nothing (log 16), are the model's choices. -/
def Obligations.LendsEndAndGiveTheMatrixBack : Prop :=
  ∀ (s : State) (tag : Byte),
    let l := s.part.lend
    let ended (p q : Part) (kind : MatrixEvent) (src : LendSource) (at_ : Nat) (blocked : Bool) : Prop :=
      q.lend = { p.lend with matrix := .owned, holdBlocked := blocked } ∧ q.acknowledgeLine = false ∧
      q.link = (p.post (.matrixEvent kind src (p.uptime - BitVec.ofNat 32 (at_ / 1000)).toNat)).link ∧
      (∀ f, (∀ i last since due, (p.fx f).inflight = some i → i.progress = .quiescent last since due →
          q.fx f = { p.fx f with inflight := some { i with progress := .quiescent last none due } }) ∧
        ((∀ i, (p.fx f).inflight = some i → ∀ last since due, i.progress ≠ .quiescent last since due) → q.fx f = p.fx f)) ∧
      (p.conv.reference = none → (∀ f, p.conv.req f = none) → q.conv = { p.conv with lastInput := none }) ∧
      (∀ n, p.conv.reference = some n → p.conv.burst = none → q.conv = { p.conv with
        lastInput := none
        burst := some { requester := .reference, input := .reference, count := min 8 n, stage := .settling (p.clock + 200)
                        orphan := false, broken := false } }) ∧
      { q with fixtures := p.fixtures, conv := p.conv, lend := p.lend, link := p.link } = p
    (s.Listening →
      (l.matrix = .owned → exec (.reclaimMatrix tag []) s = .next (s.withPart (s.part.answered 0xD3 tag [0x05, 0x00]))) ∧
      (∀ src limit, l.matrix = .pending src limit → exec (.reclaimMatrix tag []) s = .next (s.withPart ({ s.part with
        lend := { l with matrix := .owned, holdBlocked := l.holdBlocked || (src = LendSource.hold && l.holdLine) } }.answered
          0xD3 tag [0x00, 0x00]))) ∧
      (∀ src limit at_, l.matrix = .lent src limit at_ → s.part.link.notices.length < 32 →
        ∃ q, exec (.reclaimMatrix tag []) s = .next (s.withPart q) ∧
          q.link = ((s.part.noticed [.matrixEvent .reclaimed src (s.part.uptime - BitVec.ofNat 32 (at_ / 1000)).toNat]).answered
            0xD3 tag [0x00, 0x00]).link ∧
          ended s.part { q with link := (s.part.post
            (.matrixEvent .reclaimed src (s.part.uptime - BitVec.ofNat 32 (at_ / 1000)).toNat)).link } .reclaimed src at_
            (l.holdBlocked || (src = LendSource.hold && l.holdLine)))) ∧
    (l.holdLine = false → exec .holdLineDrop s = .next s) ∧
    (l.holdLine = true →
      let down : Part := { s.part with lend := { l with holdLine := false } }
      (s.part.powered = false → exec .holdLineDrop s = .next (s.withPart down)) ∧
      (s.part.powered = true → l.holdBlocked = true → exec .holdLineDrop s =
        .next (s.withPart { down with lend := { l with holdLine := false, holdBlocked := false } })) ∧
      (s.part.powered = true → l.holdBlocked = false →
        (∀ limit at_, l.matrix = .lent .hold limit at_ →
          ∃ q, exec .holdLineDrop s = .next (s.withPart q) ∧ ended down q .reclaimed .hold at_ false) ∧
        (∀ limit, l.matrix = .pending .hold limit → exec .holdLineDrop s =
          .next (s.withPart { down with lend := { l with holdLine := false, matrix := .owned } })) ∧
        (∀ limit at_, (l.matrix = .owned ∨ l.matrix = .pending .request limit ∨ l.matrix = .lent .request limit at_) →
          exec .holdLineDrop s = .next (s.withPart down)))) ∧
    (s.part.powered = true →
      (∀ src limit at_, l.matrix = .lent src limit at_ →
        ∃ q, exec .lendLimitExpiry s = .next (s.withPart q) ∧
          ended (s.part.advanceTo (at_ + limit * 1000)) q .overrun src at_ (l.holdBlocked || (src = LendSource.hold && l.holdLine))) ∧
      ((∀ src limit at_, l.matrix ≠ .lent src limit at_) → exec .lendLimitExpiry s = .next s))

/-- The converter's next burst: the reference check before any fixture, then the lowest level, then the lowest number, of at most
eight samples, with the settle that its case calls for; none while a burst is in progress or the matrix is away (section 7.3; log
26). -/
def Obligations.BurstsAreGrantedInOrder : Prop :=
  ∀ s : State, s.part.powered = true →
    let v := s.part.conv
    let now := s.part.clock
    let becomes (w : Converter) : Prop := exec .burstGrant s = .next (s.withPart { s.part with conv := w })
    ((v.burst ≠ none ∨ s.part.lend.matrix ≠ .owned ∨ (v.reference = none ∧ ∀ f, v.req f = none)) → exec .burstGrant s = .next s) ∧
    (v.burst = none → s.part.lend.matrix = .owned →
      (∀ n, v.reference = some n → becomes { v with
        burst := some { requester := .reference, input := .reference, count := min 8 n, stage := .settling (now + 200)
                        orphan := false, broken := false } }) ∧
      (v.reference = none → ∀ f r, v.req f = some r →
        (∀ g q, v.req g = some q → r.level < q.level ∨ (r.level = q.level ∧ f ≤ g)) →
        let input : ConvInput := match r.kind with
          | .analog point _ => .point f point .high
          | .quiescent => .point f 9 (s.part.fx f).supply.range
        let isCurrent : Bool := match r.kind with
          | .analog point _ => point = 9
          | .quiescent => true
        let flagged : Bool := v.rangeSettle.getLsbD f.val
        let count := min 8 r.remaining
        let burst (stage : Stage) : Option Burst :=
          some { requester := .fixture f, input := input, count := count, stage := stage, orphan := false, broken := false }
        let flags := if isCurrent then v.rangeSettle &&& ~~~(1#8 <<< f.val) else v.rangeSettle
        let settles (us : Nat) : Prop := becomes { v with rangeSettle := flags, burst := burst (.settling (now + us)) }
        let converts : Prop :=
          becomes { v with rangeSettle := flags, burst := burst (.converting (now + 10 * count)), lastInput := some input }
        (isCurrent = true → flagged = true → settles 1000) ∧
        ((isCurrent = false ∨ flagged = false) → v.lastInput = some input → converts) ∧
        ((isCurrent = false ∨ flagged = false) → v.lastInput ≠ some input →
          (r.kind = .quiescent → settles 200) ∧
          (∀ point n, r.kind = .analog point (.fixed n) → n ≠ 0 → settles (100 * n)) ∧
          (∀ point, r.kind = .analog point (.fixed 0) → converts) ∧
          (∀ point, r.kind = .analog point .ready →
            becomes { v with rangeSettle := flags, burst := burst (.waitReady now) }))))

/-- A fixed settle ends at its time and the first sample begins. A READY wait ends once its fixture reads ready 100 µs or more after
the grant, and fails 50 ms after it: no sample is taken, the step ends NOT_READY, and the converter and its last input are free
again. The sense-ready pin moves in a part held in reset too. The reference timer runs on its own seconds from the reset: its expiry
raises the check if none waits, and then what the converter grants follows (sections 7.3 and 7.4; log 2, 18). -/
def Obligations.SettlesAndReferenceTimerAct : Prop :=
  (∀ (s : State) (f : FixtureIx),
     let v := s.part.conv
     let pin (ready : Bool) : Part := s.part.modFx f fun x => { x with sense := { x.sense with ready := ready } }
     (∀ ready, (s.part.powered = false ∨ ready = false ∨ v.burst = none) →
       exec (.senseReadyChange f ready) s = .next (s.withPart (pin ready))) ∧
     (s.part.powered = true →
       ((∀ b, v.burst = some b → ∀ t, b.stage ≠ .settling t) → exec .settleEnd s = .next s) ∧
       (∀ b t, v.burst = some b → b.stage = .settling t →
         exec .settleEnd s = .next (s.withPart { s.part.advanceTo t with conv := { v with
           burst := some { b with stage := .converting (max s.part.clock t + 10 * b.count) }, lastInput := some b.input } })) ∧
       (∀ b g, v.burst = some b → b.requester = .fixture f → b.stage = .waitReady g →
         (s.part.clock < g + 100 → exec (.senseReadyChange f true) s = .next (s.withPart (pin true))) ∧
         (g + 100 ≤ s.part.clock → exec (.senseReadyChange f true) s = .next (s.withPart { pin true with conv := { v with
           burst := some { b with stage := .converting (s.part.clock + 10 * b.count) }, lastInput := some b.input } })) ∧
         ((s.part.fx f).sense.ready = true → exec .readyWaitExpiry s = .next s) ∧
         ((s.part.fx f).sense.ready = false → s.part.lend.matrix = .owned → v.reference = none → (∀ h, h ≠ f → v.req h = none) →
           (s.part.fx f).run.state = .active → (s.part.fx f).run.policy = .cont → (s.part.fx f).queue = [] →
           ∀ i pr taken, (s.part.fx f).inflight = some i → i.progress = .analog pr taken →
           let p := s.part.advanceTo (g + 50000)
           exec .readyWaitExpiry s = .next (s.withPart { p.modFx f fun x =>
               x.withResult (x.recordFor i.step i.startedAt p.uptime { verdict := .incomplete, reason := .notReady }) with
             conv := { v.setReq f none with burst := none, lastInput := none } }))) ∧
       ((∀ b, v.burst = some b → (∀ g, b.stage ≠ .waitReady g) ∨ b.requester = .reference) → exec .readyWaitExpiry s = .next s))) ∧
  (∀ s : State, s.part.powered = true →
     let v := s.part.conv
     let p := s.part.advanceTo v.refDue
     (v.reference ≠ none → exec .referenceTimer s = .next (s.withPart { p with conv := { v with refDue := v.refDue + 1000000 } })) ∧
     (v.reference = none →
       exec .referenceTimer s =
         exec .burstGrant (s.withPart { p with conv := { v with refDue := v.refDue + 1000000, reference := some 4 } }) ∧
       (v.burst = none → s.part.lend.matrix = .owned →
         exec .referenceTimer s = .next (s.withPart { p with conv := { v with
           refDue := v.refDue + 1000000, reference := some 4
           burst := some { requester := .reference, input := .reference, count := 4, stage := .settling (p.clock + 200)
                           orphan := false, broken := false } } }))))

/-- The end of a burst: its codes go to the requester, none from an orphaned burst, all full scale when the LOW range ended within
it; the last codes of an ANALOG measurement end its step with the evaluator's verdict, whatever count its step or its probe asked
for; then the next burst is granted, or a pending lend (sections 2.6, 7.3, 7.4, 8.2 and 8.3). That the end moves the clock to its
time (log 2), that the command carries eight codes of which a burst of k reads the first k (log 21), and that it does nothing with
no burst converting (log 19), are the model's choices. -/
def Obligations.BurstsReturnTheirCodes : Prop :=
  ∀ (s : State) (codes : Codes), s.part.powered = true →
    let v := s.part.conv
    ((∀ b, v.burst = some b → ∀ t, b.stage ≠ .converting t) → exec (.burstEnd codes) s = .next s) ∧
    ∀ b t, v.burst = some b → b.stage = .converting t →
      let p := s.part.advanceTo t
      let got : List Nat := if b.broken then List.replicate b.count 4095 else (codes.toList.take b.count).map fun c => c.toNat
      (b.orphan = true → s.part.lend.matrix = .owned →
        exec (.burstEnd codes) s = exec .burstGrant (s.withPart { p with conv := { v with burst := none } })) ∧
      (b.orphan = true → ∀ src limit, s.part.lend.matrix = .pending src limit →
        exec (.burstEnd codes) s = .next (s.withPart ({ p with
          conv := { v with burst := none }
          lend := { s.part.lend with matrix := .lent src limit p.clock } }.post (.matrixEvent .lent src limit)))) ∧
      (b.orphan = false → b.requester = .reference →
        let mean := (2 * got.sum + 4) / 8
        let inBand : Bool := 2700 ≤ mean && mean ≤ 3300
        let cref := if inBand then mean else v.cref
        s.part.lend.matrix = .owned → v.reference ≠ none → (∀ f, v.req f = none) →
        let q : Part := { p with conv := { v with burst := none, reference := none, cref := cref, refFault := !inBand } }
        exec (.burstEnd codes) s = .next (s.withPart (if v.refFault = inBand then q.post (.refState (!inBand) cref mean) else q))) ∧
      (b.orphan = false → s.part.lend.matrix = .owned → ∀ f r i pr taken, b.requester = .fixture f → v.req f = some r →
        (s.part.fx f).inflight = some i → i.progress = .analog pr taken → got.length = b.count →
        (b.count < r.remaining →
          exec (.burstEnd codes) s = exec .burstGrant (s.withPart { p.modFx f fun x =>
              { x with inflight := some { i with progress := .analog pr (taken ++ got) } } with
            conv := { v.setReq f (some { r with remaining := r.remaining - b.count }) with burst := none } })) ∧
        (b.count = r.remaining → ∀ point settle dflt low high k n lo hi g ms, pr.body = .analog point settle dflt low high →
          i.step.body = .measure k n lo hi g ms → (s.part.fx f).run.state = .active → (s.part.fx f).run.policy = .cont →
          (s.part.fx f).queue = [] →
          let all := taken ++ got
          let span : Int × Int := match point with
            | 8 => (0, 20000)
            | 9 => (0, 5000000)
            | 10 => (0, 10000)
            | 11 => (0, 10000)
            | _ => (low, high)
          let judged := judgeAnalog v.refFault all (analogValue all v.cref span) span lo hi g
          exec (.burstEnd codes) s = exec .burstGrant (s.withPart { p.modFx f fun x =>
              x.withResult (x.recordFor i.step i.startedAt p.uptime
                { verdict := judged.1, reason := judged.2.1, value := some judged.2.2, unit := some pr.unit
                  mean16 := some (mean16Of all), range := if point = 9 then some .high else none }) with
            conv := { v.setReq f none with burst := none } })))

/-- A QUIESCENT reading: it ends the step with REF while ref_fault stands, passes when it has read below the threshold for the hold
time, and otherwise is kept; a code at full scale is not below, and a HIGH reading under 8,000 µA takes the supply to the LOW range
(sections 2.5, 3.6 and 8.3; log 13). That BURST_END moves the clock to the burst's end (log 2) and carries eight codes, of which the
reading takes the first four (log 21), are the model's choices. -/
def Obligations.QuiescentReadingsAreJudged : Prop :=
  ∀ (s : State) (codes : Codes) (f : FixtureIx) (b : Burst) (t : Nat) (range : Range) (r : ConvRequest) (i : InFlight)
    (last : Option Reading) (since : Option (BitVec 32)) (due : Option Nat) (threshold hold ms : Nat), s.part.powered = true →
    s.part.conv.burst = some b → b.stage = .converting t → b.orphan = false → b.broken = false → b.count = 4 →
    b.requester = .fixture f → b.input = .point f 9 range → s.part.conv.req f = some r → r.remaining = 4 →
    s.part.lend.matrix = .owned → s.part.conv.reference = none → (∀ g, g ≠ f → s.part.conv.req g = none) →
    (s.part.fx f).inflight = some i → i.progress = .quiescent last since due →
    i.step.body = .waitFor (.quiescent threshold hold) ms → (s.part.fx f).run.state = .active →
    (s.part.fx f).run.policy = .cont → (s.part.fx f).queue = [] → (s.part.fx f).supply.state = .on →
    (s.part.fx f).supply.range = range →
    let p := s.part.advanceTo t
    let got := (codes.toList.take 4).map fun c => c.toNat
    let top : Int := match range with | .high => 5000000 | .low => 10000
    let clipped : Bool := got.any (· == 4095)
    let value : Int := if clipped then top else analogValue got s.part.conv.cref (0, top)
    let reading : Reading := { value := value, mean16 := mean16Of got, range := range }
    let below : Bool := !clipped && decide (value < threshold)
    let from_ := since.getD p.uptime
    let met : Bool := below && decide (hold ≤ (p.uptime - from_).toNat)
    (∀ reason verdict, (s.part.conv.refFault = true ∧ verdict = .incomplete ∧ reason = .ref) ∨
        (s.part.conv.refFault = false ∧ met = true ∧ verdict = .pass ∧ reason = .none) →
      ∃ q, exec (.burstEnd codes) s = .next (s.withPart q) ∧ (q.fx f).supply.range = .high ∧
        (q.fx f).inflight = none ∧ (q.fx f).log = (s.part.fx f).log ++ [(s.part.fx f).recordFor i.step i.startedAt p.uptime
          { verdict := verdict, reason := reason, value := some value, unit := none, mean16 := some reading.mean16
            range := some range }]) ∧
    (s.part.conv.refFault = false → met = false →
      ∃ q, exec (.burstEnd codes) s = .next (s.withPart q) ∧ (q.fx f).log = (s.part.fx f).log ∧
        (q.fx f).supply.range =
          (if range = .high ∧ value < 8000 then .low else if range = .low ∧ clipped = true then .high else range) ∧
        (q.fx f).inflight = some { i with
          progress := .quiescent (some reading) (if below = true ∧ (q.fx f).supply.range = range then some from_ else none)
            (some (p.clock / 1000 + 10)) } ∧
        q.conv.burst = none ∧ q.conv.req f = none)

/-- Buttons: a going-down opens a press bound to the shown entry, and a second one makes a chord that cancels an undecided press; a
press is HELD at 60 ms; a press that goes up before, or a cancelled or long one, does nothing. A HELD press whose entry still stands
acts on it: short PASS answers or acknowledges a NORMAL entry and dismisses a SAFETY one, short FAIL answers a CONFIRM, long PASS
defers a NORMAL entry, long FAIL halts its owner's run (section 9.4). That the 60 ms and the long time move the clock to their ends
and do nothing in another phase (log 2, 19), that a button at a part held in reset moves its pin alone (log 18, 27), and that a
report at the level it has changes nothing (log 16), are the model's choices. That a frame on the bus goes on to its end where the
halted run ends at once is the model's choice (log 36). -/
def Obligations.PressesActOnTheirEntry : Prop :=
  ∀ (s : State) (c : ConsoleId) (k : Button),
    let x := s.part.con c
    let mine : ButtonState := match k with
      | .pass => x.pass
      | .fail => x.fail
    let other : ButtonState := match k with
      | .pass => x.fail
      | .fail => x.pass
    let put (m o : ButtonState) (p : Part) : Part := p.modCon c fun x =>
      match k with
      | .pass => { x with pass := m, fail := o }
      | .fail => { x with fail := m, pass := o }
    let up (p : Part) : Part := put {} other p
    (mine.down = true → exec (.buttonDown c k) s = .next s) ∧
    (mine.down = false → s.part.powered = false →
      exec (.buttonDown c k) s = .next (s.withPart (put { down := true, press := none } other s.part))) ∧
    (mine.down = false → s.part.powered = true → other.down = false →
      exec (.buttonDown c k) s = .next (s.withPart (put { down := true, press := some { phase := .qualifying
                                                                                        bound := x.entries.head?.map (·.id)
                                                                                        longTime := x.longTime
                                                                                        downAt := s.part.clock } } other s.part))) ∧
    (mine.down = false → s.part.powered = true → other.down = true → ∀ r, other.press = some r →
      exec (.buttonDown c k) s = .next (s.withPart (put { down := true, press := some { phase := .cancelled
                                                                                        bound := x.entries.head?.map (·.id)
                                                                                        longTime := x.longTime
                                                                                        downAt := s.part.clock } }
        { down := true, press := some (if r.phase = .long then r else { r with phase := .cancelled }) } s.part))) ∧
    (mine.down = false → exec (.buttonUp c k) s = .next s) ∧
    (mine.down = true → (∀ r, mine.press = some r → r.phase ≠ .held) → exec (.buttonUp c k) s = .next (s.withPart (up s.part))) ∧
    (s.part.powered = true →
      ((∀ r, mine.press = some r → r.phase ≠ .qualifying) → exec (.pressHeld c k) s = .next s) ∧
      ((∀ r, mine.press = some r → r.phase ≠ .held) → exec (.longTimeReached c k) s = .next s) ∧
      ∀ r, mine.press = some r →
        (r.phase = .qualifying → exec (.pressHeld c k) s =
          .next (s.withPart (put { mine with press := some { r with phase := .held } } other
            (s.part.advanceTo (r.downAt + 60000))))) ∧
        (r.phase = .held →
          let long (p : Part) : Part := put { mine with press := some { r with phase := .long } } other p
          let later := long (s.part.advanceTo (r.downAt + r.longTime * 1000000))
          let gone : Prop := ∀ e ∈ x.entries, r.bound ≠ some e.id
          (gone → exec (.longTimeReached c k) s = .next (s.withPart later)) ∧
          (gone → mine.down = true → exec (.buttonUp c k) s = .next (s.withPart (up s.part))) ∧
          ((x.entries.map (·.id)).Nodup → ∀ e ∈ x.entries, r.bound = some e.id → consoleFor e.owner = c →
            (k = .pass → e.isSafety = true → exec (.longTimeReached c k) s = .next (s.withPart later)) ∧
            (k = .pass → e.isSafety = false → exec (.longTimeReached c k) s = .next (s.withPart (later.modCon c fun x =>
              { x with entries := (x.entries.filter fun g => g.id ≠ e.id) ++ [e] }))) ∧
            (k = .fail → (s.part.fx e.owner).run.isOpen = false → exec (.longTimeReached c k) s = .next (s.withPart later)) ∧
            (k = .fail → (s.part.fx e.owner).run.isOpen = true →
              ∃ q, exec (.longTimeReached c k) s = .next (s.withPart q) ∧ later.Halted e.owner .operatorReject q) ∧
            (mine.down = true →
              (k = .pass → e.isSafety = true → exec (.buttonUp c k) s = .next (s.withPart ((up s.part).modCon c fun x =>
                { x with entries := x.entries.filter fun g => g.id ≠ e.id }))) ∧
              (k = .fail → (e.isSafety = true ∨ ∃ tag runId, e.cls = .normal .ack tag runId) →
                exec (.buttonUp c k) s = .next (s.withPart (up s.part))) ∧
              (∀ kind tag runId, e.cls = .normal kind tag runId → (k = .pass ∨ kind = .confirm) →
                (s.part.fx e.owner).run.state = .active → (s.part.fx e.owner).run.policy = .cont →
                (s.part.fx e.owner).queue = [] → ∀ i n, (s.part.fx e.owner).inflight = some i → i.progress = .prompt n →
                exec (.buttonUp c k) s = .next (s.withPart (((up s.part).modFx e.owner fun x =>
                  x.withResult (x.recordFor i.step i.startedAt s.part.uptime (match k with
                    | .pass => { verdict := .pass, reason := .none }
                    | .fail => { verdict := .fail, reason := .operator }))).modCon c fun x =>
                  { x with entries := x.entries.filter fun g => !(g.owner = e.owner && !g.isSafety) })))))))

/-- The STOP switch and the flash clock. A raw change starts a debounce of 20 ms or ends one, and is debounced after one that has
run out (log 15); at its end a pressed switch halts every open run of the fitted fixtures its console serves with OPERATOR_STOP and
cuts their supplies, and only then posts CONSOLE_STOP. The flash clock turns every 125 ms and lights both rates from each whole
second (sections 9.5 and 9.6). That each end moves the clock to its deadline and does nothing while none runs (log 2, 19), that the
switch at a part held in reset moves its pin alone (log 18, 27), and that a report at the level it has changes nothing (log 16), are
the model's choices. -/
def Obligations.StopSwitchHaltsItsFixtures : Prop :=
  ∀ (s : State) (c : ConsoleId) (pressed : Bool),
    let x := s.part.con c
    (x.stopRaw = pressed → exec (.stopSwitchRawChange c pressed) s = .next s) ∧
    (x.stopRaw ≠ pressed → (s.part.powered = false ∨ ∀ t, x.stopDue = some t → s.part.clock < t) →
      exec (.stopSwitchRawChange c pressed) s = .next (s.withPart (s.part.modCon c fun x =>
        { x with stopRaw := pressed, stopAfter := none
                 stopDue := if s.part.powered = true ∧ pressed ≠ x.stopLevel then some (s.part.clock + 20000) else none }))) ∧
    (x.stopRaw ≠ pressed → s.part.powered = true → (∃ t, x.stopDue = some t ∧ t ≤ s.part.clock) →
      exec (.stopSwitchRawChange c pressed) s = .next (s.withPart (s.part.modCon c fun x =>
        { x with stopRaw := pressed
                 stopAfter := if pressed = x.stopLevel then some (s.part.clock + 20000) else none }))) ∧
    (s.part.powered = true →
      (x.stopDue = none → exec (.consoleStop c) s = .next s) ∧
      (∀ t, x.stopDue = some t →
        let p := s.part.advanceTo t
        let level : Bool := x.stopRaw != x.stopAfter.isSome
        let settled := p.modCon c fun x => { x with stopLevel := level, stopDue := x.stopAfter, stopAfter := none }
        (level = false → exec (.consoleStop c) s = .next (s.withPart (settled.post (.consoleStop c false)))) ∧
        (level = true →
          let hit (f : FixtureIx) : Prop := consoleFor f = c ∧ s.part.isFitted f = true
          ((∀ f, hit f → (s.part.fx f).run.isOpen = false ∧ (s.part.fx f).supply.live = false) →
            exec (.consoleStop c) s = .next (s.withPart (settled.post (.consoleStop c true)))) ∧
          ∃ q : Machine.Part, exec (.consoleStop c) s = .next (s.withPart (q.post (.consoleStop c true))) ∧
            (∀ f, hit f → (q.fx f).run.isOpen = false ∧ (q.fx f).supply.live = false ∧
              ((s.part.fx f).run.isOpen = true → (q.fx f).run.haltReason = .operatorStop ∧
                (q.fx f).run.verdict = (s.part.fx f).run.verdict.max .incomplete ∧ (q.fx f).inflight = none ∧ (q.fx f).queue = [] ∧
                (q.fx f).outs = { pins := (s.part.fx f).outs.pins })) ∧
            (∀ f, ¬hit f → q.fx f = p.fx f) ∧
            q.con c = { x with
              stopLevel := true, stopDue := x.stopAfter, stopAfter := none
              entries := x.entries.filter fun e => !(!e.isSafety && decide (consoleFor e.owner = c) && s.part.isFitted e.owner &&
                (s.part.fx e.owner).run.isOpen) } ∧
            (∀ d, d ≠ c → q.con d = p.con d) ∧
            { q with fixtures := p.fixtures, channels := p.channels, conv := p.conv, lend := p.lend, consoleA := p.consoleA
                     consoleB := p.consoleB, link := p.link } = p)) ∧
      exec .flashClockPhase s = .next (s.withPart { s.part.advanceTo s.part.flash.due with
        flash := { phase := s.part.flash.phase + 1, due := s.part.flash.due + 125000 } }) ∧
      (s.part.lit .slowFlash = true ↔ s.part.flash.phase.val < 4) ∧ (s.part.lit .fastFlash = true ↔ s.part.flash.phase.val % 2 = 0))

/-- CONSOLE_STATUS: BAD_FIELD for a console other than A or B; otherwise the 468 bytes of the report as they stand, with no change:
long time, entries from the top, display, buttons with the phase of their press and its bound entry, STOP level, and the lamps, each
row of their table (sections 9.3, 9.6, 9.7 and 11.7). -/
def Obligations.ConsoleStatusReports : Prop :=
  ∀ (s : State) (tag : Byte) (b : Byte), s.Listening →
    (2 ≤ b.toNat → exec (.consoleStatus tag [b]) s = .next (s.withPart (s.part.answered 0xE1 tag [0x03]))) ∧
    ∀ k : ConsoleId, b.toNat = consoleCode k →
      let x := s.part.con k
      ∃ data, exec (.consoleStatus tag [b]) s = .next (s.withPart (s.part.answered 0xE1 tag (0x00 :: data))) ∧ data.length = 468 ∧
        data.getD 0 0 = BitVec.ofNat 8 x.longTime ∧ data.getD 1 0 = BitVec.ofNat 8 x.entries.length ∧
        (x.entries.length ≤ 8 → ∀ n e, x.entries[n]? = some e →
          byteAt data (2 + 50 * n) = e.owner.val ∧
          (e.text.length ≤ 40 → byteAt data (2 + 50 * n + 3) = e.text.length ∧
            (data.drop (2 + 50 * n + 10)).take e.text.length = e.text) ∧
          (e.cls = .safety → byteAt data (2 + 50 * n + 1) = 0 ∧ byteAt data (2 + 50 * n + 2) = 0) ∧
          (∀ kind t runId, e.cls = .normal kind t runId → byteAt data (2 + 50 * n + 1) = 1 ∧
            byteAt data (2 + 50 * n + 2) = kind.code ∧ u16At data (2 + 50 * n + 4) = t.toNat ∧
            u32At data (2 + 50 * n + 6) = runId.toNat)) ∧
        (x.entries = [] → (data.drop 402).take 43 = [0, 0, 0] ++ List.replicate 40 0x20) ∧
        (∀ e rest, x.entries = e :: rest → e.text.length ≤ 40 →
          (data.drop 402).take 43 = [0x01, BitVec.ofNat 8 e.owner.val,
            (match e.cls with
              | .safety => 0x53
              | .normal .confirm _ _ => 0x43
              | .normal .ack _ _ => 0x41)] ++ e.text ++ List.replicate (40 - e.text.length) 0x20) ∧
        (∀ k : Button,
        let at_ : Nat := match k with | .pass => 445 | .fail => 450
        let button : ButtonState := match k with | .pass => x.pass | .fail => x.fail
        let bound (bytes : List Byte) : Prop := (data.drop (at_ + 2)).take 3 = bytes
        byteAt data at_ = flagNat button.down ∧
        (button.press = none → byteAt data (at_ + 1) = 0 ∧ bound [0, 0, 0]) ∧
        ∀ r, button.press = some r →
          byteAt data (at_ + 1) = (match r.phase with | .qualifying => 0 | .held => 1 | .long => 2 | .cancelled => 3) ∧
          (r.bound = none → bound [0, 0, 0]) ∧
          (∀ n, r.bound = some n → (∀ e ∈ x.entries, e.id ≠ n) → bound [2, 0, 0]) ∧
          ∀ before e after, x.entries = before ++ e :: after → (∀ g ∈ before, g.id ≠ e.id) → r.bound = some e.id →
            bound [1, BitVec.ofNat 8 e.owner.val, if e.isSafety then 0 else 1]) ∧
      byteAt data 455 = flagNat x.stopLevel ∧
        (∀ f, consoleFor f = k →
          (s.part.isFitted f = false → (data.drop (456 + 3 * (f.val % 4))).take 3 = [0, 0, 0]) ∧
          (s.part.isFitted f = true → (s.part.fx f).supply.state = .tripped →
            (data.drop (456 + 3 * (f.val % 4))).take 3 = [0, 0, 3]) ∧
          (s.part.isFitted f = true → (s.part.fx f).supply.state ≠ .tripped →
            ((s.part.fx f).run.state = .none → (data.drop (456 + 3 * (f.val % 4))).take 3 = [0, 0, 0]) ∧
            ((s.part.fx f).run.state = .halting → (data.drop (456 + 3 * (f.val % 4))).take 3 = [0, 0, 2]) ∧
            ((s.part.fx f).run.isOpen = true → (∀ e ∈ x.entries, e.owner ≠ f) →
              (data.drop (456 + 3 * (f.val % 4))).take 3 = [0, 1, 0]) ∧
            ((s.part.fx f).run.isOpen = true → (∃ e rest, x.entries = e :: rest ∧ e.owner = f) →
              (data.drop (456 + 3 * (f.val % 4))).take 3 = [0, 3, 0]) ∧
            ((s.part.fx f).run.isOpen = true → (∃ e rest, x.entries = e :: rest ∧ e.owner ≠ f ∧ ∃ g ∈ rest, g.owner = f) →
              (data.drop (456 + 3 * (f.val % 4))).take 3 = [0, 2, 0]) ∧
            ((s.part.fx f).run.state = .ended → (data.drop (456 + 3 * (f.val % 4))).take 3 = match (s.part.fx f).run.verdict with
              | .pass => [1, 0, 0]
              | .marginal => [1, 1, 0]
              | .fail => [0, 0, 1]
              | .incomplete => [0, 1, 1])))

/-- ANALOG arithmetic: the mean, its correction and the value are each rounded half up, the corrected mean is limited, the value
lies in its span, and a larger sum of codes never gives a smaller value (section 8.2). -/
def Obligations.AnalogValuesLieInTheirSpan : Prop :=
  ∀ (codes : List Nat) (cref : Nat) (low high : Int), codes ≠ [] → (∀ c ∈ codes, c ≤ 4095) → 2700 ≤ cref →
    cref ≤ 3300 → low ≤ high →
    let n := codes.length
    let m := mean16Of codes
    let c := correct m cref
    let v := analogValue codes cref (low, high)
    m ≤ 65520 ∧ 2 * n * m ≤ 32 * codes.sum + n ∧ 32 * codes.sum + n < 2 * n * (m + 1) ∧
    c ≤ 65520 ∧ 2 * cref * c ≤ 6000 * m + cref ∧ (c < 65520 → 6000 * m + cref < 2 * cref * (c + 1)) ∧ (cref = 3000 → c = m) ∧
    low ≤ v ∧ v ≤ high ∧
    131072 * (v - low) ≤ 2 * c * (high - low) + 65536 ∧ 2 * c * (high - low) + 65536 < 131072 * (v - low + 1) ∧
    ∀ more : List Nat, more.length = n → codes.sum ≤ more.sum → v ≤ analogValue more cref (low, high)

/-- TIMING and FRAME_FIELD arithmetic: a TIMING value is its quotient rounded half up; a field is its bits of the frame's data, read
without a sign or in two's complement; its scaling rounds half away from zero and stays in 32 bits (sections 8.4 and 8.5). -/
def Obligations.FieldAndTimingValuesAreExact : Prop :=
  (∀ w t h : Nat, 0 < w → 0 < t → h ≤ t →
    let near (v : Int) (a b : Nat) : Prop := 2 * (b : Int) * v ≤ 2 * a + b ∧ 2 * (a : Int) + b < 2 * b * (v + 1)
    near (timingValue .periodUs w t h) t w ∧ near (timingValue .highUs w t h) h w ∧
    near (timingValue .dutyPermille w t h) (1000 * h) t ∧ near (timingValue .freqMhz w t h) (1000000000 * w) t ∧
    timingValue .dutyPermille w t h ≤ 1000) ∧
  (∀ (data : List Byte) (start width : Nat), data.length = 8 → 1 ≤ width → width ≤ 32 → start + width ≤ 64 →
    let raw := fieldRaw data start width false
    let signed := fieldRaw data start width true
    0 ≤ raw ∧ raw < 2 ^ width ∧
    (∀ k, k < width → (raw.toNat.testBit k = (data.getD ((start + k) / 8) 0).getLsbD ((start + k) % 8))) ∧
    -(2 ^ (width - 1) : Int) ≤ signed ∧ signed < 2 ^ (width - 1) ∧ (signed = raw ∨ signed = raw - 2 ^ width)) ∧
  (∀ (raw num : Int) (den : Nat) (offset : Int), 0 < den →
    let v := fieldValue raw num den offset
    let near := halfAway (raw * num) den
    (-2147483648 ≤ v) ∧ v ≤ 2147483647 ∧
    (2 * (den : Int) * near - 2 * raw * num).natAbs ≤ den ∧ (0 ≤ raw * num → 2 * raw * num < 2 * den * near + den) ∧
    halfAway (-(raw * num)) den = -near ∧
    (-2147483648 ≤ near + offset → near + offset ≤ 2147483647 → v = near + offset) ∧
    (near + offset < -2147483648 → v = -2147483648) ∧ (2147483647 < near + offset → v = 2147483647))

/-- The verdict of an ANALOG measurement: REF outranks clipping, clipping the limits, and a clip at one end decides against a limit
inside the span alone. A value that reaches the limits is judged by them and then by the guard bands, the nearer limit naming the
reason and a tie going to LOW (section 8.2). -/
def Obligations.ClipsLimitsAndGuardBands : Prop :=
  (∀ (refFault : Bool) (codes : List Nat) (value low high : Int) (lower upper : Option Int) (guard : Nat),
    let top : Prop := (4095 : Nat) ∈ codes
    let bottom : Prop := (0 : Nat) ∈ codes
    let gives (v : Verdict) (r : Reason) (shown : Int) : Prop :=
      judgeAnalog refFault codes value (low, high) lower upper guard = (v, r, shown)
    (refFault = true → gives .incomplete .ref value) ∧
    (refFault = false →
      (top → bottom → gives .incomplete .saturated value) ∧
      (top → ¬bottom → (∃ u, upper = some u ∧ u < high) → gives .fail .high high) ∧
      (top → ¬bottom → (∀ u, upper = some u → high ≤ u) → gives .incomplete .saturated value) ∧
      (¬top → bottom → (∃ l, lower = some l ∧ low < l) → gives .fail .low low) ∧
      (¬top → bottom → (∀ l, lower = some l → l ≤ low) → gives .incomplete .saturated value) ∧
      (¬top → ¬bottom → gives (judgeLimits value lower upper guard).1 (judgeLimits value lower upper guard).2 value))) ∧
  (∀ (v : Int) (lower upper : Option Int) (g : Nat), (∀ l u, lower = some l → upper = some u → l ≤ u) →
    let below : Prop := ∃ l, lower = some l ∧ v < l
    let above : Prop := ∃ u, upper = some u ∧ u < v
    let lowBand : Prop := ∃ l, lower = some l ∧ v < l + g
    let highBand : Prop := ∃ u, upper = some u ∧ u - g < v
    let gives (x : Verdict) (r : Reason) : Prop := judgeLimits v lower upper g = (x, r)
    (below → gives .fail .low) ∧ (above → gives .fail .high) ∧
    (¬below → ¬above →
      (¬lowBand → ¬highBand → gives .pass .none) ∧ (lowBand → ¬highBand → gives .marginal .low) ∧
      (¬lowBand → highBand → gives .marginal .high) ∧
      ((lowBand ∨ highBand) → ∀ l u, lower = some l → upper = some u →
        (v - l ≤ u - v → gives .marginal .low) ∧ (u - v < v - l → gives .marginal .high))))

/-- The laws of the part, of which the four following statements speak, hold right after the release of the power-on reset (section
10.6). -/
def Obligations.LawsHoldAtReset : Prop :=
  let p := State.reset.part
  p.StoreLaw ∧ p.CapacityLaw ∧ p.LendLaw ∧ p.RackLaw ∧ p.RunLaw ∧ p.PortLaw ∧ p.InterlockLaw ∧ p.RangeLaw ∧ p.VerdictLaw ∧ p.PromptLaw

/-- Every step keeps pattern memory in its canonical form, Cref in 2700 to 3300, the notice queue within 32, the result log with its
reserved slot within 64, the step queue within 32 and the transmit queue within 16. Every step keeps the converter idle while the
matrix is LENT, and the LOW range to a supply that is ON with a QUIESCENT step in flight (sections 1.3, 3.6, 4.3, 6.3, 7.4, 7.5 and
10.3). -/
def Obligations.StepsKeepStoresLendsAndRanges : Prop :=
  (∀ s t : State, s.part.StoreLaw → s.part.CapacityLaw → Sys2Proof.Machine.step s = .next t → t.part.StoreLaw ∧ t.part.CapacityLaw) ∧
  (∀ s t : State, s.part.LendLaw → s.part.RangeLaw → Sys2Proof.Machine.step s = .next t → t.part.LendLaw ∧ t.part.RangeLaw)

/-- Every step keeps live supplies, steps in flight and playing channels to open runs, no live supply under a rack CUTOFF, and each
port in the state of its run (sections 1.3, 3.2, 3.7, 4.2 and 6.1). -/
def Obligations.StepsKeepTheRunLaws : Prop :=
  ∀ s t : State, s.part.RunLaw → s.part.RackLaw → s.part.PortLaw → Sys2Proof.Machine.step s = .next t →
    t.part.RunLaw ∧ t.part.RackLaw ∧ t.part.PortLaw

/-- Every step keeps the interlock: a run is open only at a fitted fixture with its unit present, its lid closed and its console's
STOP switch released (sections 1.1 and 9.5). -/
def Obligations.StepsKeepTheInterlock : Prop :=
  ∀ s t : State, s.part.InterlockLaw → Sys2Proof.Machine.step s = .next t → t.part.InterlockLaw

/-- Every step keeps the prompt lists in order, with each NORMAL entry belonging to the PROMPT step in flight, and no record of a
log more severe than its run's verdict (sections 9.2 and 1.3). -/
def Obligations.StepsKeepThePromptAndVerdictLaws : Prop :=
  ∀ s t : State, s.part.PromptLaw → s.part.VerdictLaw → Sys2Proof.Machine.step s = .next t → t.part.PromptLaw ∧ t.part.VerdictLaw
end

