-- ==== Sys2Proof/Laws/Memory.lean ====
section
/-! SUPPORT. Pattern memory: a write is read back, leaves every other byte, and keeps the canonical form. -/

namespace Sys2Proof.Machine

open Sys2Proof

/-! ## The canonical form -/

/-- The form from a lower bound on follows from the form from a higher one. -/
theorem Pattern.wfFrom_mono {lo hi : Nat} (h : lo ≤ hi) {m : List Host.Cell} (hm : Pattern.wfFrom hi m = true) :
    Pattern.wfFrom lo m = true := by
  cases m with
  | nil => rfl
  | cons c rest =>
    obtain ⟨a, v⟩ := c
    simp only [Pattern.wfFrom, Bool.and_eq_true, decide_eq_true_eq] at hm ⊢
    exact ⟨⟨⟨by omega, hm.1.1.2⟩, hm.1.2⟩, hm.2⟩

/-- Putting a byte in front of higher ones keeps the form. -/
theorem Pattern.put_wfFrom {lo a : Nat} {v : Byte} {m : List Host.Cell} (h : lo ≤ a) (ha : a < patternBytes)
    (hm : Pattern.wfFrom (a + 1) m = true) : Pattern.wfFrom lo (Pattern.put a v m) = true := by
  unfold Pattern.put
  split
  · exact Pattern.wfFrom_mono (by omega) hm
  · simp_all [Pattern.wfFrom]

/-- A write keeps the form. -/
theorem Pattern.write_wfFrom {lo a : Nat} {v : Byte} {m : List Host.Cell} (h : lo ≤ a) (ha : a < patternBytes)
    (hm : Pattern.wfFrom lo m = true) : Pattern.wfFrom lo (Pattern.write m a v) = true := by
  induction m generalizing lo with
  | nil => exact Pattern.put_wfFrom h ha rfl
  | cons c rest ih =>
    obtain ⟨b, w⟩ := c
    simp only [Pattern.wfFrom, Bool.and_eq_true, decide_eq_true_eq] at hm
    obtain ⟨⟨⟨hb, hb'⟩, hw⟩, hr⟩ := hm
    unfold Pattern.write
    split
    · refine Pattern.put_wfFrom h ha ?_
      simp only [Pattern.wfFrom, Bool.and_eq_true, decide_eq_true_eq]
      exact ⟨⟨⟨by omega, hb'⟩, hw⟩, hr⟩
    · split
      · next hab => subst hab; exact Pattern.put_wfFrom h ha hr
      · simp only [Pattern.wfFrom, Bool.and_eq_true, decide_eq_true_eq]
        exact ⟨⟨⟨hb, hb'⟩, hw⟩, ih (by omega) hr⟩

/-- Consecutive writes within the memory keep the form. -/
theorem Pattern.writeAll_wf {a : Nat} {vs : List Byte} {m : List Host.Cell} (ha : a + vs.length ≤ patternBytes)
    (hm : Pattern.wf m = true) : Pattern.wf (Pattern.writeAll m a vs) = true := by
  induction vs generalizing a m with
  | nil => exact hm
  | cons v vs ih =>
    simp only [List.length_cons] at ha
    exact ih (by omega) (Pattern.write_wfFrom (Nat.zero_le a) (by omega) hm)

/-! ## Reading back -/

/-- Nothing below the bound of a list in form is listed. -/
theorem Pattern.read_below {lo a : Nat} {m : List Host.Cell} (hm : Pattern.wfFrom lo m = true) (h : a < lo) :
    Pattern.read m a = 0 := by
  cases m with
  | nil => rfl
  | cons c rest =>
    obtain ⟨b, w⟩ := c
    simp only [Pattern.wfFrom, Bool.and_eq_true, decide_eq_true_eq] at hm
    unfold Pattern.read
    rw [if_neg (by omega), if_pos (by omega)]

/-- What a list with a byte put in front reads. -/
theorem Pattern.read_put {a x : Nat} {v : Byte} {m : List Host.Cell} (hm : Pattern.wfFrom (a + 1) m = true) :
    Pattern.read (Pattern.put a v m) x = if x = a then v else Pattern.read m x := by
  unfold Pattern.put
  by_cases hv : v = 0
  · rw [if_pos hv]
    split
    · next hx => subst hx; rw [hv]; exact Pattern.read_below hm (by omega)
    · rfl
  · rw [if_neg hv]
    conv => lhs; unfold Pattern.read
    split
    · rfl
    · split
      · next hx => exact (Pattern.read_below hm (by omega)).symm
      · rfl

/-- A write is read back, and every other byte reads as before. -/
theorem Pattern.read_write {lo a x : Nat} {v : Byte} {m : List Host.Cell} (hm : Pattern.wfFrom lo m = true) :
    Pattern.read (Pattern.write m a v) x = if x = a then v else Pattern.read m x := by
  induction m generalizing lo with
  | nil => exact Pattern.read_put rfl
  | cons c rest ih =>
    obtain ⟨b, w⟩ := c
    have hm' := hm
    simp only [Pattern.wfFrom, Bool.and_eq_true, decide_eq_true_eq] at hm
    obtain ⟨⟨⟨hb, hb'⟩, hw⟩, hr⟩ := hm
    unfold Pattern.write
    split
    · next hab =>
      refine Pattern.read_put ?_
      simp only [Pattern.wfFrom, Bool.and_eq_true, decide_eq_true_eq]
      exact ⟨⟨⟨by omega, hb'⟩, hw⟩, hr⟩
    · split
      · next hab =>
        subst hab
        rw [Pattern.read_put hr]
        split
        · rfl
        · next hx =>
          conv => rhs; unfold Pattern.read
          rw [if_neg hx]
          split
          · next hlt => exact Pattern.read_below hr (by omega)
          · rfl
      · next hlt hne =>
        conv => lhs; unfold Pattern.read
        rw [ih hr]
        by_cases hxa : x = a
        · rw [if_pos hxa, if_neg (by omega), if_neg (by omega), if_pos hxa]
        · rw [if_neg hxa, if_neg hxa]
          conv => rhs; unfold Pattern.read

/-- Consecutive writes are read back, and every other byte reads as before. -/
theorem Pattern.read_writeAll {a x : Nat} {vs : List Byte} {m : List Host.Cell} (ha : a + vs.length ≤ patternBytes)
    (hm : Pattern.wf m = true) :
    Pattern.read (Pattern.writeAll m a vs) x =
      if a ≤ x ∧ x < a + vs.length then vs.getD (x - a) 0 else Pattern.read m x := by
  induction vs generalizing a m with
  | nil => simp [Pattern.writeAll]
  | cons v vs ih =>
    simp only [List.length_cons] at ha
    have hw : Pattern.wf (Pattern.write m a v) = true := Pattern.write_wfFrom (Nat.zero_le a) (by omega) hm
    have hr := Pattern.read_write (x := x) (a := a) (v := v) hm
    rw [Pattern.writeAll, ih (by omega) hw, hr]
    simp only [List.length_cons]
    by_cases hx : x = a
    · subst hx; rw [if_neg (by omega), if_pos rfl, if_pos (by omega)]; simp
    · by_cases h1 : a + 1 ≤ x ∧ x < a + 1 + vs.length
      · rw [if_pos h1, if_pos (by omega)]
        have : x - a = (x - (a + 1)) + 1 := by omega
        rw [this]; simp
      · rw [if_neg h1, if_neg hx, if_neg (by omega)]

end Sys2Proof.Machine
end

