-- ==== Sys2Proof/Laws/State.lean ====
section
/-! SUPPORT. One lemma for each field under each update of the part: what an update leaves as it was, and what it puts there.
No later proof needs to unfold a record update. -/

namespace Sys2Proof.Machine

open Sys2Proof

/-! ## modFx -/

@[simp] theorem Part.modFx_powered (p : Part) (f : FixtureIx) (g : Fixture → Fixture) : (p.modFx f g).powered = p.powered := rfl
@[simp] theorem Part.modFx_clock (p : Part) (f : FixtureIx) (g : Fixture → Fixture) : (p.modFx f g).clock = p.clock := rfl
@[simp] theorem Part.modFx_freeIndex (p : Part) (f : FixtureIx) (g : Fixture → Fixture) : (p.modFx f g).freeIndex = p.freeIndex := rfl
@[simp] theorem Part.modFx_rate (p : Part) (f : FixtureIx) (g : Fixture → Fixture) : (p.modFx f g).rate = p.rate := rfl
@[simp] theorem Part.modFx_fitted (p : Part) (f : FixtureIx) (g : Fixture → Fixture) : (p.modFx f g).fitted = p.fitted := rfl
@[simp] theorem Part.modFx_cause (p : Part) (f : FixtureIx) (g : Fixture → Fixture) : (p.modFx f g).cause = p.cause := rfl
@[simp] theorem Part.modFx_flash (p : Part) (f : FixtureIx) (g : Fixture → Fixture) : (p.modFx f g).flash = p.flash := rfl
@[simp] theorem Part.modFx_channels (p : Part) (f : FixtureIx) (g : Fixture → Fixture) : (p.modFx f g).channels = p.channels := rfl
@[simp] theorem Part.modFx_pattern (p : Part) (f : FixtureIx) (g : Fixture → Fixture) : (p.modFx f g).pattern = p.pattern := rfl
@[simp] theorem Part.modFx_pathBusy (p : Part) (f : FixtureIx) (g : Fixture → Fixture) : (p.modFx f g).pathBusy = p.pathBusy := rfl
@[simp] theorem Part.modFx_probes (p : Part) (f : FixtureIx) (g : Fixture → Fixture) : (p.modFx f g).probes = p.probes := rfl
@[simp] theorem Part.modFx_conv (p : Part) (f : FixtureIx) (g : Fixture → Fixture) : (p.modFx f g).conv = p.conv := rfl
@[simp] theorem Part.modFx_lend (p : Part) (f : FixtureIx) (g : Fixture → Fixture) : (p.modFx f g).lend = p.lend := rfl
@[simp] theorem Part.modFx_rack (p : Part) (f : FixtureIx) (g : Fixture → Fixture) : (p.modFx f g).rack = p.rack := rfl
@[simp] theorem Part.modFx_consoleA (p : Part) (f : FixtureIx) (g : Fixture → Fixture) : (p.modFx f g).consoleA = p.consoleA := rfl
@[simp] theorem Part.modFx_consoleB (p : Part) (f : FixtureIx) (g : Fixture → Fixture) : (p.modFx f g).consoleB = p.consoleB := rfl
@[simp] theorem Part.modFx_link (p : Part) (f : FixtureIx) (g : Fixture → Fixture) : (p.modFx f g).link = p.link := rfl
@[simp] theorem Part.modFx_ch (p : Part) (f : FixtureIx) (g : Fixture → Fixture) (d : ChannelIx) : (p.modFx f g).ch d = p.ch d := rfl
@[simp] theorem Part.modFx_isFitted (p : Part) (f : FixtureIx) (g : Fixture → Fixture) (h : FixtureIx) : (p.modFx f g).isFitted h = p.isFitted h := rfl
@[simp] theorem Part.modFx_uptime (p : Part) (f : FixtureIx) (g : Fixture → Fixture) : (p.modFx f g).uptime = p.uptime := rfl
@[simp] theorem Part.modFx_con (p : Part) (f : FixtureIx) (g : Fixture → Fixture) (k : ConsoleId) : (p.modFx f g).con k = p.con k := rfl

/-! ## modCh -/

@[simp] theorem Part.modCh_powered (p : Part) (c : ChannelIx) (g : Channel → Channel) : (p.modCh c g).powered = p.powered := rfl
@[simp] theorem Part.modCh_clock (p : Part) (c : ChannelIx) (g : Channel → Channel) : (p.modCh c g).clock = p.clock := rfl
@[simp] theorem Part.modCh_freeIndex (p : Part) (c : ChannelIx) (g : Channel → Channel) : (p.modCh c g).freeIndex = p.freeIndex := rfl
@[simp] theorem Part.modCh_rate (p : Part) (c : ChannelIx) (g : Channel → Channel) : (p.modCh c g).rate = p.rate := rfl
@[simp] theorem Part.modCh_fitted (p : Part) (c : ChannelIx) (g : Channel → Channel) : (p.modCh c g).fitted = p.fitted := rfl
@[simp] theorem Part.modCh_cause (p : Part) (c : ChannelIx) (g : Channel → Channel) : (p.modCh c g).cause = p.cause := rfl
@[simp] theorem Part.modCh_flash (p : Part) (c : ChannelIx) (g : Channel → Channel) : (p.modCh c g).flash = p.flash := rfl
@[simp] theorem Part.modCh_fixtures (p : Part) (c : ChannelIx) (g : Channel → Channel) : (p.modCh c g).fixtures = p.fixtures := rfl
@[simp] theorem Part.modCh_pattern (p : Part) (c : ChannelIx) (g : Channel → Channel) : (p.modCh c g).pattern = p.pattern := rfl
@[simp] theorem Part.modCh_pathBusy (p : Part) (c : ChannelIx) (g : Channel → Channel) : (p.modCh c g).pathBusy = p.pathBusy := rfl
@[simp] theorem Part.modCh_probes (p : Part) (c : ChannelIx) (g : Channel → Channel) : (p.modCh c g).probes = p.probes := rfl
@[simp] theorem Part.modCh_conv (p : Part) (c : ChannelIx) (g : Channel → Channel) : (p.modCh c g).conv = p.conv := rfl
@[simp] theorem Part.modCh_lend (p : Part) (c : ChannelIx) (g : Channel → Channel) : (p.modCh c g).lend = p.lend := rfl
@[simp] theorem Part.modCh_rack (p : Part) (c : ChannelIx) (g : Channel → Channel) : (p.modCh c g).rack = p.rack := rfl
@[simp] theorem Part.modCh_consoleA (p : Part) (c : ChannelIx) (g : Channel → Channel) : (p.modCh c g).consoleA = p.consoleA := rfl
@[simp] theorem Part.modCh_consoleB (p : Part) (c : ChannelIx) (g : Channel → Channel) : (p.modCh c g).consoleB = p.consoleB := rfl
@[simp] theorem Part.modCh_link (p : Part) (c : ChannelIx) (g : Channel → Channel) : (p.modCh c g).link = p.link := rfl
@[simp] theorem Part.modCh_fx (p : Part) (c : ChannelIx) (g : Channel → Channel) (h : FixtureIx) : (p.modCh c g).fx h = p.fx h := rfl
@[simp] theorem Part.modCh_isFitted (p : Part) (c : ChannelIx) (g : Channel → Channel) (h : FixtureIx) : (p.modCh c g).isFitted h = p.isFitted h := rfl
@[simp] theorem Part.modCh_uptime (p : Part) (c : ChannelIx) (g : Channel → Channel) : (p.modCh c g).uptime = p.uptime := rfl
@[simp] theorem Part.modCh_con (p : Part) (c : ChannelIx) (g : Channel → Channel) (k : ConsoleId) : (p.modCh c g).con k = p.con k := rfl

/-! ## modLink -/

@[simp] theorem Part.modLink_powered (p : Part) (g : Link → Link) : (p.modLink g).powered = p.powered := rfl
@[simp] theorem Part.modLink_clock (p : Part) (g : Link → Link) : (p.modLink g).clock = p.clock := rfl
@[simp] theorem Part.modLink_freeIndex (p : Part) (g : Link → Link) : (p.modLink g).freeIndex = p.freeIndex := rfl
@[simp] theorem Part.modLink_rate (p : Part) (g : Link → Link) : (p.modLink g).rate = p.rate := rfl
@[simp] theorem Part.modLink_fitted (p : Part) (g : Link → Link) : (p.modLink g).fitted = p.fitted := rfl
@[simp] theorem Part.modLink_cause (p : Part) (g : Link → Link) : (p.modLink g).cause = p.cause := rfl
@[simp] theorem Part.modLink_flash (p : Part) (g : Link → Link) : (p.modLink g).flash = p.flash := rfl
@[simp] theorem Part.modLink_fixtures (p : Part) (g : Link → Link) : (p.modLink g).fixtures = p.fixtures := rfl
@[simp] theorem Part.modLink_channels (p : Part) (g : Link → Link) : (p.modLink g).channels = p.channels := rfl
@[simp] theorem Part.modLink_pattern (p : Part) (g : Link → Link) : (p.modLink g).pattern = p.pattern := rfl
@[simp] theorem Part.modLink_pathBusy (p : Part) (g : Link → Link) : (p.modLink g).pathBusy = p.pathBusy := rfl
@[simp] theorem Part.modLink_probes (p : Part) (g : Link → Link) : (p.modLink g).probes = p.probes := rfl
@[simp] theorem Part.modLink_conv (p : Part) (g : Link → Link) : (p.modLink g).conv = p.conv := rfl
@[simp] theorem Part.modLink_lend (p : Part) (g : Link → Link) : (p.modLink g).lend = p.lend := rfl
@[simp] theorem Part.modLink_rack (p : Part) (g : Link → Link) : (p.modLink g).rack = p.rack := rfl
@[simp] theorem Part.modLink_consoleA (p : Part) (g : Link → Link) : (p.modLink g).consoleA = p.consoleA := rfl
@[simp] theorem Part.modLink_consoleB (p : Part) (g : Link → Link) : (p.modLink g).consoleB = p.consoleB := rfl
@[simp] theorem Part.modLink_link (p : Part) (g : Link → Link) : (p.modLink g).link = g p.link := rfl
@[simp] theorem Part.modLink_fx (p : Part) (g : Link → Link) (h : FixtureIx) : (p.modLink g).fx h = p.fx h := rfl
@[simp] theorem Part.modLink_ch (p : Part) (g : Link → Link) (d : ChannelIx) : (p.modLink g).ch d = p.ch d := rfl
@[simp] theorem Part.modLink_isFitted (p : Part) (g : Link → Link) (h : FixtureIx) : (p.modLink g).isFitted h = p.isFitted h := rfl
@[simp] theorem Part.modLink_uptime (p : Part) (g : Link → Link) : (p.modLink g).uptime = p.uptime := rfl
@[simp] theorem Part.modLink_con (p : Part) (g : Link → Link) (k : ConsoleId) : (p.modLink g).con k = p.con k := rfl

/-! ## modConv -/

@[simp] theorem Part.modConv_powered (p : Part) (g : Converter → Converter) : (p.modConv g).powered = p.powered := rfl
@[simp] theorem Part.modConv_clock (p : Part) (g : Converter → Converter) : (p.modConv g).clock = p.clock := rfl
@[simp] theorem Part.modConv_freeIndex (p : Part) (g : Converter → Converter) : (p.modConv g).freeIndex = p.freeIndex := rfl
@[simp] theorem Part.modConv_rate (p : Part) (g : Converter → Converter) : (p.modConv g).rate = p.rate := rfl
@[simp] theorem Part.modConv_fitted (p : Part) (g : Converter → Converter) : (p.modConv g).fitted = p.fitted := rfl
@[simp] theorem Part.modConv_cause (p : Part) (g : Converter → Converter) : (p.modConv g).cause = p.cause := rfl
@[simp] theorem Part.modConv_flash (p : Part) (g : Converter → Converter) : (p.modConv g).flash = p.flash := rfl
@[simp] theorem Part.modConv_fixtures (p : Part) (g : Converter → Converter) : (p.modConv g).fixtures = p.fixtures := rfl
@[simp] theorem Part.modConv_channels (p : Part) (g : Converter → Converter) : (p.modConv g).channels = p.channels := rfl
@[simp] theorem Part.modConv_pattern (p : Part) (g : Converter → Converter) : (p.modConv g).pattern = p.pattern := rfl
@[simp] theorem Part.modConv_pathBusy (p : Part) (g : Converter → Converter) : (p.modConv g).pathBusy = p.pathBusy := rfl
@[simp] theorem Part.modConv_probes (p : Part) (g : Converter → Converter) : (p.modConv g).probes = p.probes := rfl
@[simp] theorem Part.modConv_lend (p : Part) (g : Converter → Converter) : (p.modConv g).lend = p.lend := rfl
@[simp] theorem Part.modConv_rack (p : Part) (g : Converter → Converter) : (p.modConv g).rack = p.rack := rfl
@[simp] theorem Part.modConv_consoleA (p : Part) (g : Converter → Converter) : (p.modConv g).consoleA = p.consoleA := rfl
@[simp] theorem Part.modConv_consoleB (p : Part) (g : Converter → Converter) : (p.modConv g).consoleB = p.consoleB := rfl
@[simp] theorem Part.modConv_link (p : Part) (g : Converter → Converter) : (p.modConv g).link = p.link := rfl
@[simp] theorem Part.modConv_conv (p : Part) (g : Converter → Converter) : (p.modConv g).conv = g p.conv := rfl
@[simp] theorem Part.modConv_fx (p : Part) (g : Converter → Converter) (h : FixtureIx) : (p.modConv g).fx h = p.fx h := rfl
@[simp] theorem Part.modConv_ch (p : Part) (g : Converter → Converter) (d : ChannelIx) : (p.modConv g).ch d = p.ch d := rfl
@[simp] theorem Part.modConv_isFitted (p : Part) (g : Converter → Converter) (h : FixtureIx) : (p.modConv g).isFitted h = p.isFitted h := rfl
@[simp] theorem Part.modConv_uptime (p : Part) (g : Converter → Converter) : (p.modConv g).uptime = p.uptime := rfl
@[simp] theorem Part.modConv_con (p : Part) (g : Converter → Converter) (k : ConsoleId) : (p.modConv g).con k = p.con k := rfl

/-! ## modLend -/

@[simp] theorem Part.modLend_powered (p : Part) (g : Lend → Lend) : (p.modLend g).powered = p.powered := rfl
@[simp] theorem Part.modLend_clock (p : Part) (g : Lend → Lend) : (p.modLend g).clock = p.clock := rfl
@[simp] theorem Part.modLend_freeIndex (p : Part) (g : Lend → Lend) : (p.modLend g).freeIndex = p.freeIndex := rfl
@[simp] theorem Part.modLend_rate (p : Part) (g : Lend → Lend) : (p.modLend g).rate = p.rate := rfl
@[simp] theorem Part.modLend_fitted (p : Part) (g : Lend → Lend) : (p.modLend g).fitted = p.fitted := rfl
@[simp] theorem Part.modLend_cause (p : Part) (g : Lend → Lend) : (p.modLend g).cause = p.cause := rfl
@[simp] theorem Part.modLend_flash (p : Part) (g : Lend → Lend) : (p.modLend g).flash = p.flash := rfl
@[simp] theorem Part.modLend_fixtures (p : Part) (g : Lend → Lend) : (p.modLend g).fixtures = p.fixtures := rfl
@[simp] theorem Part.modLend_channels (p : Part) (g : Lend → Lend) : (p.modLend g).channels = p.channels := rfl
@[simp] theorem Part.modLend_pattern (p : Part) (g : Lend → Lend) : (p.modLend g).pattern = p.pattern := rfl
@[simp] theorem Part.modLend_pathBusy (p : Part) (g : Lend → Lend) : (p.modLend g).pathBusy = p.pathBusy := rfl
@[simp] theorem Part.modLend_probes (p : Part) (g : Lend → Lend) : (p.modLend g).probes = p.probes := rfl
@[simp] theorem Part.modLend_conv (p : Part) (g : Lend → Lend) : (p.modLend g).conv = p.conv := rfl
@[simp] theorem Part.modLend_rack (p : Part) (g : Lend → Lend) : (p.modLend g).rack = p.rack := rfl
@[simp] theorem Part.modLend_consoleA (p : Part) (g : Lend → Lend) : (p.modLend g).consoleA = p.consoleA := rfl
@[simp] theorem Part.modLend_consoleB (p : Part) (g : Lend → Lend) : (p.modLend g).consoleB = p.consoleB := rfl
@[simp] theorem Part.modLend_link (p : Part) (g : Lend → Lend) : (p.modLend g).link = p.link := rfl
@[simp] theorem Part.modLend_lend (p : Part) (g : Lend → Lend) : (p.modLend g).lend = g p.lend := rfl
@[simp] theorem Part.modLend_fx (p : Part) (g : Lend → Lend) (h : FixtureIx) : (p.modLend g).fx h = p.fx h := rfl
@[simp] theorem Part.modLend_ch (p : Part) (g : Lend → Lend) (d : ChannelIx) : (p.modLend g).ch d = p.ch d := rfl
@[simp] theorem Part.modLend_isFitted (p : Part) (g : Lend → Lend) (h : FixtureIx) : (p.modLend g).isFitted h = p.isFitted h := rfl
@[simp] theorem Part.modLend_uptime (p : Part) (g : Lend → Lend) : (p.modLend g).uptime = p.uptime := rfl
@[simp] theorem Part.modLend_con (p : Part) (g : Lend → Lend) (k : ConsoleId) : (p.modLend g).con k = p.con k := rfl

/-! ## modSupply -/

@[simp] theorem Part.modSupply_powered (p : Part) (f : FixtureIx) (g : Supply → Supply) : (p.modSupply f g).powered = p.powered := rfl
@[simp] theorem Part.modSupply_clock (p : Part) (f : FixtureIx) (g : Supply → Supply) : (p.modSupply f g).clock = p.clock := rfl
@[simp] theorem Part.modSupply_freeIndex (p : Part) (f : FixtureIx) (g : Supply → Supply) : (p.modSupply f g).freeIndex = p.freeIndex := rfl
@[simp] theorem Part.modSupply_rate (p : Part) (f : FixtureIx) (g : Supply → Supply) : (p.modSupply f g).rate = p.rate := rfl
@[simp] theorem Part.modSupply_fitted (p : Part) (f : FixtureIx) (g : Supply → Supply) : (p.modSupply f g).fitted = p.fitted := rfl
@[simp] theorem Part.modSupply_cause (p : Part) (f : FixtureIx) (g : Supply → Supply) : (p.modSupply f g).cause = p.cause := rfl
@[simp] theorem Part.modSupply_flash (p : Part) (f : FixtureIx) (g : Supply → Supply) : (p.modSupply f g).flash = p.flash := rfl
@[simp] theorem Part.modSupply_channels (p : Part) (f : FixtureIx) (g : Supply → Supply) : (p.modSupply f g).channels = p.channels := rfl
@[simp] theorem Part.modSupply_pattern (p : Part) (f : FixtureIx) (g : Supply → Supply) : (p.modSupply f g).pattern = p.pattern := rfl
@[simp] theorem Part.modSupply_pathBusy (p : Part) (f : FixtureIx) (g : Supply → Supply) : (p.modSupply f g).pathBusy = p.pathBusy := rfl
@[simp] theorem Part.modSupply_probes (p : Part) (f : FixtureIx) (g : Supply → Supply) : (p.modSupply f g).probes = p.probes := rfl
@[simp] theorem Part.modSupply_conv (p : Part) (f : FixtureIx) (g : Supply → Supply) : (p.modSupply f g).conv = p.conv := rfl
@[simp] theorem Part.modSupply_lend (p : Part) (f : FixtureIx) (g : Supply → Supply) : (p.modSupply f g).lend = p.lend := rfl
@[simp] theorem Part.modSupply_rack (p : Part) (f : FixtureIx) (g : Supply → Supply) : (p.modSupply f g).rack = p.rack := rfl
@[simp] theorem Part.modSupply_consoleA (p : Part) (f : FixtureIx) (g : Supply → Supply) : (p.modSupply f g).consoleA = p.consoleA := rfl
@[simp] theorem Part.modSupply_consoleB (p : Part) (f : FixtureIx) (g : Supply → Supply) : (p.modSupply f g).consoleB = p.consoleB := rfl
@[simp] theorem Part.modSupply_link (p : Part) (f : FixtureIx) (g : Supply → Supply) : (p.modSupply f g).link = p.link := rfl
@[simp] theorem Part.modSupply_ch (p : Part) (f : FixtureIx) (g : Supply → Supply) (d : ChannelIx) : (p.modSupply f g).ch d = p.ch d := rfl
@[simp] theorem Part.modSupply_isFitted (p : Part) (f : FixtureIx) (g : Supply → Supply) (h : FixtureIx) : (p.modSupply f g).isFitted h = p.isFitted h := rfl
@[simp] theorem Part.modSupply_uptime (p : Part) (f : FixtureIx) (g : Supply → Supply) : (p.modSupply f g).uptime = p.uptime := rfl
@[simp] theorem Part.modSupply_con (p : Part) (f : FixtureIx) (g : Supply → Supply) (k : ConsoleId) : (p.modSupply f g).con k = p.con k := rfl

/-! ## modRun -/

@[simp] theorem Part.modRun_powered (p : Part) (f : FixtureIx) (g : Run → Run) : (p.modRun f g).powered = p.powered := rfl
@[simp] theorem Part.modRun_clock (p : Part) (f : FixtureIx) (g : Run → Run) : (p.modRun f g).clock = p.clock := rfl
@[simp] theorem Part.modRun_freeIndex (p : Part) (f : FixtureIx) (g : Run → Run) : (p.modRun f g).freeIndex = p.freeIndex := rfl
@[simp] theorem Part.modRun_rate (p : Part) (f : FixtureIx) (g : Run → Run) : (p.modRun f g).rate = p.rate := rfl
@[simp] theorem Part.modRun_fitted (p : Part) (f : FixtureIx) (g : Run → Run) : (p.modRun f g).fitted = p.fitted := rfl
@[simp] theorem Part.modRun_cause (p : Part) (f : FixtureIx) (g : Run → Run) : (p.modRun f g).cause = p.cause := rfl
@[simp] theorem Part.modRun_flash (p : Part) (f : FixtureIx) (g : Run → Run) : (p.modRun f g).flash = p.flash := rfl
@[simp] theorem Part.modRun_channels (p : Part) (f : FixtureIx) (g : Run → Run) : (p.modRun f g).channels = p.channels := rfl
@[simp] theorem Part.modRun_pattern (p : Part) (f : FixtureIx) (g : Run → Run) : (p.modRun f g).pattern = p.pattern := rfl
@[simp] theorem Part.modRun_pathBusy (p : Part) (f : FixtureIx) (g : Run → Run) : (p.modRun f g).pathBusy = p.pathBusy := rfl
@[simp] theorem Part.modRun_probes (p : Part) (f : FixtureIx) (g : Run → Run) : (p.modRun f g).probes = p.probes := rfl
@[simp] theorem Part.modRun_conv (p : Part) (f : FixtureIx) (g : Run → Run) : (p.modRun f g).conv = p.conv := rfl
@[simp] theorem Part.modRun_lend (p : Part) (f : FixtureIx) (g : Run → Run) : (p.modRun f g).lend = p.lend := rfl
@[simp] theorem Part.modRun_rack (p : Part) (f : FixtureIx) (g : Run → Run) : (p.modRun f g).rack = p.rack := rfl
@[simp] theorem Part.modRun_consoleA (p : Part) (f : FixtureIx) (g : Run → Run) : (p.modRun f g).consoleA = p.consoleA := rfl
@[simp] theorem Part.modRun_consoleB (p : Part) (f : FixtureIx) (g : Run → Run) : (p.modRun f g).consoleB = p.consoleB := rfl
@[simp] theorem Part.modRun_link (p : Part) (f : FixtureIx) (g : Run → Run) : (p.modRun f g).link = p.link := rfl
@[simp] theorem Part.modRun_ch (p : Part) (f : FixtureIx) (g : Run → Run) (d : ChannelIx) : (p.modRun f g).ch d = p.ch d := rfl
@[simp] theorem Part.modRun_isFitted (p : Part) (f : FixtureIx) (g : Run → Run) (h : FixtureIx) : (p.modRun f g).isFitted h = p.isFitted h := rfl
@[simp] theorem Part.modRun_uptime (p : Part) (f : FixtureIx) (g : Run → Run) : (p.modRun f g).uptime = p.uptime := rfl
@[simp] theorem Part.modRun_con (p : Part) (f : FixtureIx) (g : Run → Run) (k : ConsoleId) : (p.modRun f g).con k = p.con k := rfl

/-! ## modOuts -/

@[simp] theorem Part.modOuts_powered (p : Part) (f : FixtureIx) (g : Outputs → Outputs) : (p.modOuts f g).powered = p.powered := rfl
@[simp] theorem Part.modOuts_clock (p : Part) (f : FixtureIx) (g : Outputs → Outputs) : (p.modOuts f g).clock = p.clock := rfl
@[simp] theorem Part.modOuts_freeIndex (p : Part) (f : FixtureIx) (g : Outputs → Outputs) : (p.modOuts f g).freeIndex = p.freeIndex := rfl
@[simp] theorem Part.modOuts_rate (p : Part) (f : FixtureIx) (g : Outputs → Outputs) : (p.modOuts f g).rate = p.rate := rfl
@[simp] theorem Part.modOuts_fitted (p : Part) (f : FixtureIx) (g : Outputs → Outputs) : (p.modOuts f g).fitted = p.fitted := rfl
@[simp] theorem Part.modOuts_cause (p : Part) (f : FixtureIx) (g : Outputs → Outputs) : (p.modOuts f g).cause = p.cause := rfl
@[simp] theorem Part.modOuts_flash (p : Part) (f : FixtureIx) (g : Outputs → Outputs) : (p.modOuts f g).flash = p.flash := rfl
@[simp] theorem Part.modOuts_channels (p : Part) (f : FixtureIx) (g : Outputs → Outputs) : (p.modOuts f g).channels = p.channels := rfl
@[simp] theorem Part.modOuts_pattern (p : Part) (f : FixtureIx) (g : Outputs → Outputs) : (p.modOuts f g).pattern = p.pattern := rfl
@[simp] theorem Part.modOuts_pathBusy (p : Part) (f : FixtureIx) (g : Outputs → Outputs) : (p.modOuts f g).pathBusy = p.pathBusy := rfl
@[simp] theorem Part.modOuts_probes (p : Part) (f : FixtureIx) (g : Outputs → Outputs) : (p.modOuts f g).probes = p.probes := rfl
@[simp] theorem Part.modOuts_conv (p : Part) (f : FixtureIx) (g : Outputs → Outputs) : (p.modOuts f g).conv = p.conv := rfl
@[simp] theorem Part.modOuts_lend (p : Part) (f : FixtureIx) (g : Outputs → Outputs) : (p.modOuts f g).lend = p.lend := rfl
@[simp] theorem Part.modOuts_rack (p : Part) (f : FixtureIx) (g : Outputs → Outputs) : (p.modOuts f g).rack = p.rack := rfl
@[simp] theorem Part.modOuts_consoleA (p : Part) (f : FixtureIx) (g : Outputs → Outputs) : (p.modOuts f g).consoleA = p.consoleA := rfl
@[simp] theorem Part.modOuts_consoleB (p : Part) (f : FixtureIx) (g : Outputs → Outputs) : (p.modOuts f g).consoleB = p.consoleB := rfl
@[simp] theorem Part.modOuts_link (p : Part) (f : FixtureIx) (g : Outputs → Outputs) : (p.modOuts f g).link = p.link := rfl
@[simp] theorem Part.modOuts_ch (p : Part) (f : FixtureIx) (g : Outputs → Outputs) (d : ChannelIx) : (p.modOuts f g).ch d = p.ch d := rfl
@[simp] theorem Part.modOuts_isFitted (p : Part) (f : FixtureIx) (g : Outputs → Outputs) (h : FixtureIx) : (p.modOuts f g).isFitted h = p.isFitted h := rfl
@[simp] theorem Part.modOuts_uptime (p : Part) (f : FixtureIx) (g : Outputs → Outputs) : (p.modOuts f g).uptime = p.uptime := rfl
@[simp] theorem Part.modOuts_con (p : Part) (f : FixtureIx) (g : Outputs → Outputs) (k : ConsoleId) : (p.modOuts f g).con k = p.con k := rfl

/-! ## modPort -/

@[simp] theorem Part.modPort_powered (p : Part) (f : FixtureIx) (g : Port → Port) : (p.modPort f g).powered = p.powered := rfl
@[simp] theorem Part.modPort_clock (p : Part) (f : FixtureIx) (g : Port → Port) : (p.modPort f g).clock = p.clock := rfl
@[simp] theorem Part.modPort_freeIndex (p : Part) (f : FixtureIx) (g : Port → Port) : (p.modPort f g).freeIndex = p.freeIndex := rfl
@[simp] theorem Part.modPort_rate (p : Part) (f : FixtureIx) (g : Port → Port) : (p.modPort f g).rate = p.rate := rfl
@[simp] theorem Part.modPort_fitted (p : Part) (f : FixtureIx) (g : Port → Port) : (p.modPort f g).fitted = p.fitted := rfl
@[simp] theorem Part.modPort_cause (p : Part) (f : FixtureIx) (g : Port → Port) : (p.modPort f g).cause = p.cause := rfl
@[simp] theorem Part.modPort_flash (p : Part) (f : FixtureIx) (g : Port → Port) : (p.modPort f g).flash = p.flash := rfl
@[simp] theorem Part.modPort_channels (p : Part) (f : FixtureIx) (g : Port → Port) : (p.modPort f g).channels = p.channels := rfl
@[simp] theorem Part.modPort_pattern (p : Part) (f : FixtureIx) (g : Port → Port) : (p.modPort f g).pattern = p.pattern := rfl
@[simp] theorem Part.modPort_pathBusy (p : Part) (f : FixtureIx) (g : Port → Port) : (p.modPort f g).pathBusy = p.pathBusy := rfl
@[simp] theorem Part.modPort_probes (p : Part) (f : FixtureIx) (g : Port → Port) : (p.modPort f g).probes = p.probes := rfl
@[simp] theorem Part.modPort_conv (p : Part) (f : FixtureIx) (g : Port → Port) : (p.modPort f g).conv = p.conv := rfl
@[simp] theorem Part.modPort_lend (p : Part) (f : FixtureIx) (g : Port → Port) : (p.modPort f g).lend = p.lend := rfl
@[simp] theorem Part.modPort_rack (p : Part) (f : FixtureIx) (g : Port → Port) : (p.modPort f g).rack = p.rack := rfl
@[simp] theorem Part.modPort_consoleA (p : Part) (f : FixtureIx) (g : Port → Port) : (p.modPort f g).consoleA = p.consoleA := rfl
@[simp] theorem Part.modPort_consoleB (p : Part) (f : FixtureIx) (g : Port → Port) : (p.modPort f g).consoleB = p.consoleB := rfl
@[simp] theorem Part.modPort_link (p : Part) (f : FixtureIx) (g : Port → Port) : (p.modPort f g).link = p.link := rfl
@[simp] theorem Part.modPort_ch (p : Part) (f : FixtureIx) (g : Port → Port) (d : ChannelIx) : (p.modPort f g).ch d = p.ch d := rfl
@[simp] theorem Part.modPort_isFitted (p : Part) (f : FixtureIx) (g : Port → Port) (h : FixtureIx) : (p.modPort f g).isFitted h = p.isFitted h := rfl
@[simp] theorem Part.modPort_uptime (p : Part) (f : FixtureIx) (g : Port → Port) : (p.modPort f g).uptime = p.uptime := rfl
@[simp] theorem Part.modPort_con (p : Part) (f : FixtureIx) (g : Port → Port) (k : ConsoleId) : (p.modPort f g).con k = p.con k := rfl

/-! ## used -/

@[simp] theorem Part.used_powered (p : Part) : (p.used).powered = p.powered := rfl
@[simp] theorem Part.used_clock (p : Part) : (p.used).clock = p.clock := rfl
@[simp] theorem Part.used_rate (p : Part) : (p.used).rate = p.rate := rfl
@[simp] theorem Part.used_fitted (p : Part) : (p.used).fitted = p.fitted := rfl
@[simp] theorem Part.used_cause (p : Part) : (p.used).cause = p.cause := rfl
@[simp] theorem Part.used_flash (p : Part) : (p.used).flash = p.flash := rfl
@[simp] theorem Part.used_fixtures (p : Part) : (p.used).fixtures = p.fixtures := rfl
@[simp] theorem Part.used_channels (p : Part) : (p.used).channels = p.channels := rfl
@[simp] theorem Part.used_pattern (p : Part) : (p.used).pattern = p.pattern := rfl
@[simp] theorem Part.used_pathBusy (p : Part) : (p.used).pathBusy = p.pathBusy := rfl
@[simp] theorem Part.used_probes (p : Part) : (p.used).probes = p.probes := rfl
@[simp] theorem Part.used_conv (p : Part) : (p.used).conv = p.conv := rfl
@[simp] theorem Part.used_lend (p : Part) : (p.used).lend = p.lend := rfl
@[simp] theorem Part.used_rack (p : Part) : (p.used).rack = p.rack := rfl
@[simp] theorem Part.used_consoleA (p : Part) : (p.used).consoleA = p.consoleA := rfl
@[simp] theorem Part.used_consoleB (p : Part) : (p.used).consoleB = p.consoleB := rfl
@[simp] theorem Part.used_link (p : Part) : (p.used).link = p.link := rfl
@[simp] theorem Part.used_freeIndex (p : Part) : p.used.freeIndex = p.freeIndex + 1 := rfl
@[simp] theorem Part.used_fx (p : Part) (h : FixtureIx) : (p.used ).fx h = p.fx h := rfl
@[simp] theorem Part.used_ch (p : Part) (d : ChannelIx) : (p.used ).ch d = p.ch d := rfl
@[simp] theorem Part.used_isFitted (p : Part) (h : FixtureIx) : (p.used ).isFitted h = p.isFitted h := rfl
@[simp] theorem Part.used_uptime (p : Part) : (p.used ).uptime = p.uptime := rfl
@[simp] theorem Part.used_con (p : Part) (k : ConsoleId) : (p.used ).con k = p.con k := rfl

/-! ## post -/

@[simp] theorem Part.post_powered (p : Part) (n : Notice) : (p.post n).powered = p.powered := rfl
@[simp] theorem Part.post_clock (p : Part) (n : Notice) : (p.post n).clock = p.clock := rfl
@[simp] theorem Part.post_freeIndex (p : Part) (n : Notice) : (p.post n).freeIndex = p.freeIndex := rfl
@[simp] theorem Part.post_rate (p : Part) (n : Notice) : (p.post n).rate = p.rate := rfl
@[simp] theorem Part.post_fitted (p : Part) (n : Notice) : (p.post n).fitted = p.fitted := rfl
@[simp] theorem Part.post_cause (p : Part) (n : Notice) : (p.post n).cause = p.cause := rfl
@[simp] theorem Part.post_flash (p : Part) (n : Notice) : (p.post n).flash = p.flash := rfl
@[simp] theorem Part.post_fixtures (p : Part) (n : Notice) : (p.post n).fixtures = p.fixtures := rfl
@[simp] theorem Part.post_channels (p : Part) (n : Notice) : (p.post n).channels = p.channels := rfl
@[simp] theorem Part.post_pattern (p : Part) (n : Notice) : (p.post n).pattern = p.pattern := rfl
@[simp] theorem Part.post_pathBusy (p : Part) (n : Notice) : (p.post n).pathBusy = p.pathBusy := rfl
@[simp] theorem Part.post_probes (p : Part) (n : Notice) : (p.post n).probes = p.probes := rfl
@[simp] theorem Part.post_conv (p : Part) (n : Notice) : (p.post n).conv = p.conv := rfl
@[simp] theorem Part.post_lend (p : Part) (n : Notice) : (p.post n).lend = p.lend := rfl
@[simp] theorem Part.post_rack (p : Part) (n : Notice) : (p.post n).rack = p.rack := rfl
@[simp] theorem Part.post_consoleA (p : Part) (n : Notice) : (p.post n).consoleA = p.consoleA := rfl
@[simp] theorem Part.post_consoleB (p : Part) (n : Notice) : (p.post n).consoleB = p.consoleB := rfl
@[simp] theorem Part.post_fx (p : Part) (n : Notice) (h : FixtureIx) : (p.post n).fx h = p.fx h := rfl
@[simp] theorem Part.post_ch (p : Part) (n : Notice) (d : ChannelIx) : (p.post n).ch d = p.ch d := rfl
@[simp] theorem Part.post_isFitted (p : Part) (n : Notice) (h : FixtureIx) : (p.post n).isFitted h = p.isFitted h := rfl
@[simp] theorem Part.post_uptime (p : Part) (n : Notice) : (p.post n).uptime = p.uptime := rfl
@[simp] theorem Part.post_con (p : Part) (n : Notice) (k : ConsoleId) : (p.post n).con k = p.con k := rfl

/-! ## The fixture or channel that an update changes -/

/-- A fixture changed reads as changed. -/
@[simp] theorem Part.modFx_fx (p : Part) (f : FixtureIx) (g : Fixture → Fixture) : (p.modFx f g).fx f = g (p.fx f) := by
  simp [Part.modFx, Part.fx]

/-- Another fixture reads as before. -/
theorem Part.modFx_fx_ne (p : Part) {f h : FixtureIx} (g : Fixture → Fixture) (hne : h ≠ f) : (p.modFx f g).fx h = p.fx h := by
  have : f.val ≠ h.val := fun e => hne (Fin.ext e.symm)
  simp [Part.modFx, Part.fx, this]

/-- A channel changed reads as changed. -/
@[simp] theorem Part.modCh_ch (p : Part) (c : ChannelIx) (g : Channel → Channel) : (p.modCh c g).ch c = g (p.ch c) := by
  simp [Part.modCh, Part.ch]

/-- Another channel reads as before. -/
theorem Part.modCh_ch_ne (p : Part) {c d : ChannelIx} (g : Channel → Channel) (hne : d ≠ c) : (p.modCh c g).ch d = p.ch d := by
  have : c.val ≠ d.val := fun e => hne (Fin.ext e.symm)
  simp [Part.modCh, Part.ch, this]

/-- A function on every entry of a table acts on each. -/
@[simp] theorem getElem_mapEntries {α : Type} {n : Nat} (g : α → α) (v : Vector α n) (i : Nat) (h : i < n) :
    (mapEntries g v)[i] = g v[i] := by
  simp [mapEntries]

@[simp] theorem Part.modSupply_fx (p : Part) (f : FixtureIx) (g : Supply → Supply) :
    (p.modSupply f g).fx f = { p.fx f with supply := g (p.fx f).supply } := by
  simp [Part.modSupply]

theorem Part.modSupply_fx_ne (p : Part) {f h : FixtureIx} (g : Supply → Supply) (hne : h ≠ f) : (p.modSupply f g).fx h = p.fx h := by
  simp [Part.modSupply, Part.modFx_fx_ne p _ hne]

@[simp] theorem Part.modRun_fx (p : Part) (f : FixtureIx) (g : Run → Run) :
    (p.modRun f g).fx f = { p.fx f with run := g (p.fx f).run } := by
  simp [Part.modRun]

theorem Part.modRun_fx_ne (p : Part) {f h : FixtureIx} (g : Run → Run) (hne : h ≠ f) : (p.modRun f g).fx h = p.fx h := by
  simp [Part.modRun, Part.modFx_fx_ne p _ hne]

@[simp] theorem Part.modOuts_fx (p : Part) (f : FixtureIx) (g : Outputs → Outputs) :
    (p.modOuts f g).fx f = { p.fx f with outs := g (p.fx f).outs } := by
  simp [Part.modOuts]

theorem Part.modOuts_fx_ne (p : Part) {f h : FixtureIx} (g : Outputs → Outputs) (hne : h ≠ f) : (p.modOuts f g).fx h = p.fx h := by
  simp [Part.modOuts, Part.modFx_fx_ne p _ hne]

@[simp] theorem Part.modPort_fx (p : Part) (f : FixtureIx) (g : Port → Port) :
    (p.modPort f g).fx f = { p.fx f with port := g (p.fx f).port } := by
  simp [Part.modPort]

theorem Part.modPort_fx_ne (p : Part) {f h : FixtureIx} (g : Port → Port) (hne : h ≠ f) : (p.modPort f g).fx h = p.fx h := by
  simp [Part.modPort, Part.modFx_fx_ne p _ hne]

/-! ## modCon -/

@[simp] theorem Part.modCon_powered (p : Part) (k : ConsoleId) (g : Console → Console) : (p.modCon k g).powered = p.powered := by
  cases k <;> rfl
@[simp] theorem Part.modCon_clock (p : Part) (k : ConsoleId) (g : Console → Console) : (p.modCon k g).clock = p.clock := by
  cases k <;> rfl
@[simp] theorem Part.modCon_freeIndex (p : Part) (k : ConsoleId) (g : Console → Console) : (p.modCon k g).freeIndex = p.freeIndex := by
  cases k <;> rfl
@[simp] theorem Part.modCon_rate (p : Part) (k : ConsoleId) (g : Console → Console) : (p.modCon k g).rate = p.rate := by
  cases k <;> rfl
@[simp] theorem Part.modCon_fitted (p : Part) (k : ConsoleId) (g : Console → Console) : (p.modCon k g).fitted = p.fitted := by
  cases k <;> rfl
@[simp] theorem Part.modCon_cause (p : Part) (k : ConsoleId) (g : Console → Console) : (p.modCon k g).cause = p.cause := by
  cases k <;> rfl
@[simp] theorem Part.modCon_flash (p : Part) (k : ConsoleId) (g : Console → Console) : (p.modCon k g).flash = p.flash := by
  cases k <;> rfl
@[simp] theorem Part.modCon_fixtures (p : Part) (k : ConsoleId) (g : Console → Console) : (p.modCon k g).fixtures = p.fixtures := by
  cases k <;> rfl
@[simp] theorem Part.modCon_channels (p : Part) (k : ConsoleId) (g : Console → Console) : (p.modCon k g).channels = p.channels := by
  cases k <;> rfl
@[simp] theorem Part.modCon_pattern (p : Part) (k : ConsoleId) (g : Console → Console) : (p.modCon k g).pattern = p.pattern := by
  cases k <;> rfl
@[simp] theorem Part.modCon_pathBusy (p : Part) (k : ConsoleId) (g : Console → Console) : (p.modCon k g).pathBusy = p.pathBusy := by
  cases k <;> rfl
@[simp] theorem Part.modCon_probes (p : Part) (k : ConsoleId) (g : Console → Console) : (p.modCon k g).probes = p.probes := by
  cases k <;> rfl
@[simp] theorem Part.modCon_conv (p : Part) (k : ConsoleId) (g : Console → Console) : (p.modCon k g).conv = p.conv := by
  cases k <;> rfl
@[simp] theorem Part.modCon_lend (p : Part) (k : ConsoleId) (g : Console → Console) : (p.modCon k g).lend = p.lend := by
  cases k <;> rfl
@[simp] theorem Part.modCon_rack (p : Part) (k : ConsoleId) (g : Console → Console) : (p.modCon k g).rack = p.rack := by
  cases k <;> rfl
@[simp] theorem Part.modCon_link (p : Part) (k : ConsoleId) (g : Console → Console) : (p.modCon k g).link = p.link := by
  cases k <;> rfl
@[simp] theorem Part.modCon_fx (p : Part) (k : ConsoleId) (g : Console → Console) (h : FixtureIx) : (p.modCon k g).fx h = p.fx h := by
  cases k <;> rfl
@[simp] theorem Part.modCon_ch (p : Part) (k : ConsoleId) (g : Console → Console) (d : ChannelIx) : (p.modCon k g).ch d = p.ch d := by
  cases k <;> rfl
@[simp] theorem Part.modCon_con (p : Part) (k : ConsoleId) (g : Console → Console) : (p.modCon k g).con k = g (p.con k) := by
  cases k <;> rfl

end Sys2Proof.Machine
end

