-- ==== Sys2Proof/Laws/Requests.lean ====
section
/-! SUPPORT. What a request at a free link does: the owning block acts on the part as the link port hands it over, and the reply is
taken up in the same event. A proof about one request cites these and computes the block's own answer alone. -/

namespace Sys2Proof.Machine

open Sys2Proof

/-- A request at a free link: the block's answer, with the reply taken up, if the block has left the link's transmitter and frame
buffer alone. -/
theorem request_next {s : State} (hl : s.Listening) {ty tag : Byte} {payload : List Byte} (ht : ty.toNat < 0x70)
    {q : Part} {data : List Byte}
    (hd : (s.part.asked ty tag).dispatch { ty := ty, tag := tag, payload := payload } = (q, data))
    (h1 : q.link.tx = .free) (h2 : q.link.frameBuf = none) :
    s.request ty tag payload = .next { s with part := q.replied ty tag data } := by
  obtain ⟨a, b, c, d, e⟩ := hl
  have h : ¬ (0x70 ≤ ty.toNat) := by omega
  have hd' : ((s.part.frameHeard).modLink fun l =>
      { l with reply := some (Frame.replyWith { ty := ty, tag := tag, payload := payload } []) }).dispatch
        { ty := ty, tag := tag, payload := payload } = (q, data) := hd
  have hh : s.part.frameHeard.handle { ty := ty, tag := tag, payload := payload } =
      q.modLink fun l => { l with reply := some { ty := ty + 0x80, tag := tag, payload := data } } := by
    simp only [Part.handle, hd']
    rfl
  have ht : s.part.frameHeard.takeRequest { ty := ty, tag := tag, payload := payload } =
      (s.part.frameHeard.handle { ty := ty, tag := tag, payload := payload }).pump := by
    simp [Part.takeRequest, Part.frameHeard, Part.modLink, Link.hunt, b, c, d]
  have hp : s.part.goodFrame { ty := ty, tag := tag, payload := payload } = q.replied ty tag data := by
    simp only [Part.goodFrame, h, if_false, ht, hh]
    simp only [Part.pump, Part.takeNext, Part.modLink, h1, if_true, Part.handleWaiting, h2, Part.replied]
  simp only [State.request, State.event, a, if_true, hp]

/-- A request at a free link whose block leaves the link port's own fields as they were handed over: `r` is the part the block makes,
seen without the request. -/
theorem request_answered {s : State} (hl : s.Listening) {ty tag : Byte} {payload : List Byte} (ht : ty.toNat < 0x70)
    (r : Part) {data : List Byte}
    (hd : (s.part.asked ty tag).dispatch { ty := ty, tag := tag, payload := payload } = (r.asked ty tag, data))
    (h1 : r.link.tx = .free) (h2 : r.link.frameBuf = none) (h3 : r.link.reply = none) :
    s.request ty tag payload = .next (s.withPart (r.answered (ty + 0x80) tag data)) := by
  rw [request_next hl ht hd h1 h2]
  simp [Part.replied, Part.asked, Part.answered, h3, State.withPart]

/-- A refused request: the part is as it was but for the link. -/
theorem request_refused {s : State} (hl : s.Listening) {ty tag : Byte} {payload : List Byte} (ht : ty.toNat < 0x70)
    {data : List Byte} (hd : (s.part.asked ty tag).dispatch { ty := ty, tag := tag, payload := payload } = (s.part.asked ty tag, data)) :
    s.request ty tag payload = .next { s with part := s.part.answered (ty + 0x80) tag data } := by
  rw [request_next hl ht hd hl.free hl.noRequest]
  simp [Part.replied, Part.asked, Part.answered, hl.noReply]

@[simp] theorem Part.asked_powered (p : Part) (a b : Byte) : (p.asked a b).powered = p.powered := rfl
@[simp] theorem Part.asked_clock (p : Part) (a b : Byte) : (p.asked a b).clock = p.clock := rfl
@[simp] theorem Part.asked_fixtures (p : Part) (a b : Byte) : (p.asked a b).fixtures = p.fixtures := rfl
@[simp] theorem Part.asked_channels (p : Part) (a b : Byte) : (p.asked a b).channels = p.channels := rfl
@[simp] theorem Part.asked_pattern (p : Part) (a b : Byte) : (p.asked a b).pattern = p.pattern := rfl
@[simp] theorem Part.asked_probes (p : Part) (a b : Byte) : (p.asked a b).probes = p.probes := rfl
@[simp] theorem Part.asked_pathBusy (p : Part) (a b : Byte) : (p.asked a b).pathBusy = p.pathBusy := rfl
@[simp] theorem Part.asked_conv (p : Part) (a b : Byte) : (p.asked a b).conv = p.conv := rfl
@[simp] theorem Part.asked_lend (p : Part) (a b : Byte) : (p.asked a b).lend = p.lend := rfl
@[simp] theorem Part.asked_rack (p : Part) (a b : Byte) : (p.asked a b).rack = p.rack := rfl
@[simp] theorem Part.asked_fx (p : Part) (a b : Byte) (f : FixtureIx) : (p.asked a b).fx f = p.fx f := rfl
@[simp] theorem Part.asked_ch (p : Part) (a b : Byte) (c : ChannelIx) : (p.asked a b).ch c = p.ch c := rfl
@[simp] theorem Part.asked_probe (p : Part) (a b : Byte) (n : ProbeIx) : (p.asked a b).probe n = p.probe n := rfl
@[simp] theorem Part.asked_con (p : Part) (a b : Byte) (k : ConsoleId) : (p.asked a b).con k = p.con k := by cases k <;> rfl
@[simp] theorem Part.asked_uptime (p : Part) (a b : Byte) : (p.asked a b).uptime = p.uptime := rfl
@[simp] theorem Part.asked_isFitted (p : Part) (a b : Byte) (f : FixtureIx) : (p.asked a b).isFitted f = p.isFitted f := rfl
@[simp] theorem Part.asked_namedFixture (p : Part) (a b : Byte) (k : Nat) : (p.asked a b).namedFixture k = p.namedFixture k := rfl
@[simp] theorem Part.asked_tx (p : Part) (a b : Byte) : (p.asked a b).link.tx = p.link.tx := rfl
@[simp] theorem Part.asked_frameBuf (p : Part) (a b : Byte) : (p.asked a b).link.frameBuf = p.link.frameBuf := rfl

/-- With the reply slot taken a notice can only queue, or be lost. -/
theorem Part.asked_post (p : Part) (a b : Byte) (n : Notice) :
    (p.asked a b).post n =
      if p.link.notices.length < 32 then
        { p.asked a b with link := { (p.asked a b).link with notices := p.link.notices ++ [n] } }
      else { p.asked a b with link := { (p.asked a b).link with noticesLost := true } } := by
  simp only [Part.post, Part.modLink, Part.asked]
  by_cases h : p.link.notices.length < 32 <;> simp [h]

/-- With room for it, a notice of a request's event joins the queue behind the reply. -/
theorem Part.asked_post_room {p : Part} (h : p.link.notices.length < 32) (a b : Byte) (n : Notice) :
    (p.asked a b).post n = (p.noticed [n]).asked a b := by
  rw [Part.asked_post, if_pos h]; rfl

theorem Part.asked_modFx (p : Part) (a b : Byte) (f : FixtureIx) (g : Fixture → Fixture) :
    (p.asked a b).modFx f g = (p.modFx f g).asked a b := rfl

/-- The byte of a fixture's number. -/
theorem byteAt_fixture (f : FixtureIx) (l : List Byte) : byteAt (BitVec.ofNat 8 f.val :: l) 0 = f.val := by
  have := f.isLt
  simp [byteAt]; omega

/-- A fixture's number as a byte names the fixture when it is fitted. -/
theorem Part.namedFixture_val (p : Part) (f : FixtureIx) : p.namedFixture f.val = if p.isFitted f then some f else none := by
  simp [Part.namedFixture, finOf]

end Sys2Proof.Machine
end

