-- ==== Sys2Proof/Laws/Runs.lean ====
section
/-! SUPPORT. What the operations on a run can do: the withdrawal of a converter request, the end of a step, and entry to HALTING. Each
says once everything its operation can change. -/

namespace Sys2Proof.Machine

open Sys2Proof

/-! ## Operations that reach the converter, the lend state and the link alone -/

/-- Nothing but the converter, the lend state and the link has changed. -/
def Part.OnlyConverter (p q : Part) : Prop := { q with conv := p.conv, lend := p.lend, link := p.link } = p

theorem Part.OnlyConverter.refl (p : Part) : p.OnlyConverter p := rfl

theorem Part.OnlyConverter.trans {p q r : Part} (h : p.OnlyConverter q) (k : q.OnlyConverter r) : p.OnlyConverter r := by
  unfold Part.OnlyConverter at *
  rw [← h, ← k]

theorem Part.OnlyConverter.fx {p q : Part} (h : p.OnlyConverter q) (f : FixtureIx) : q.fx f = p.fx f := by
  rw [← h]; rfl

theorem Part.OnlyConverter.ch {p q : Part} (h : p.OnlyConverter q) (c : ChannelIx) : q.ch c = p.ch c := by
  rw [← h]; rfl

theorem Part.OnlyConverter.channels {p q : Part} (h : p.OnlyConverter q) : q.channels = p.channels := by
  unfold Part.OnlyConverter at h
  exact (congrArg Part.channels h :)

theorem Part.OnlyConverter.rest {p q : Part} (h : p.OnlyConverter q) :
    { q with fixtures := p.fixtures, conv := p.conv, lend := p.lend, consoleA := p.consoleA, consoleB := p.consoleB
             link := p.link } = p := by
  unfold Part.OnlyConverter at h
  rw [← h]

theorem Part.OnlyConverter.con {p q : Part} (h : p.OnlyConverter q) (k : ConsoleId) : q.con k = p.con k := by
  rw [← h]; rfl

theorem Part.OnlyConverter.uptime {p q : Part} (h : p.OnlyConverter q) : q.uptime = p.uptime := by
  rw [← h]; rfl

theorem Part.OnlyConverter.clock {p q : Part} (h : p.OnlyConverter q) : q.clock = p.clock := by
  rw [← h]

theorem Part.post_onlyConverter (p : Part) (n : Notice) : p.OnlyConverter (p.post n) := rfl

theorem Part.modConv_onlyConverter (p : Part) (g : Converter → Converter) : p.OnlyConverter (p.modConv g) := rfl

theorem Part.modLend_onlyConverter (p : Part) (g : Lend → Lend) : p.OnlyConverter (p.modLend g) := rfl

theorem Part.startConverting_onlyConverter (p : Part) : p.OnlyConverter p.startConverting := rfl

theorem Part.beginBurst_onlyConverter (p : Part) (r : Requester) (i : ConvInput) (n : Nat) (plan : SettlePlan) :
    p.OnlyConverter (p.beginBurst r i n plan) := by
  cases plan <;> rfl

/-- The converter's requests and reference values of two parts are the same. -/
structure Part.SameRequests (p q : Part) : Prop where
  requests : q.conv.requests = p.conv.requests
  reference : q.conv.reference = p.conv.reference
  cref : q.conv.cref = p.conv.cref
  refFault : q.conv.refFault = p.conv.refFault
  refDue : q.conv.refDue = p.conv.refDue

theorem Part.SameRequests.refl (p : Part) : p.SameRequests p := ⟨rfl, rfl, rfl, rfl, rfl⟩

theorem Part.SameRequests.trans {p q r : Part} (h : p.SameRequests q) (k : q.SameRequests r) : p.SameRequests r :=
  ⟨k.1.trans h.1, k.2.trans h.2, k.3.trans h.3, k.4.trans h.4, k.5.trans h.5⟩

theorem Part.startConverting_sameRequests (p : Part) : p.SameRequests p.startConverting := by
  unfold Part.startConverting
  constructor <;> (simp only [Part.modConv_conv]; split <;> rfl)

theorem Part.beginBurst_sameRequests (p : Part) (r : Requester) (i : ConvInput) (n : Nat) (plan : SettlePlan) :
    p.SameRequests (p.beginBurst r i n plan) := by
  cases plan
  · exact Part.SameRequests.trans (q := p.modConv _) ⟨rfl, rfl, rfl, rfl, rfl⟩ (Part.startConverting_sameRequests _)
  · exact ⟨rfl, rfl, rfl, rfl, rfl⟩
  · exact ⟨rfl, rfl, rfl, rfl, rfl⟩

theorem Part.tryBurst_only (p : Part) : p.OnlyConverter p.tryBurst ∧ p.SameRequests p.tryBurst := by
  unfold Part.tryBurst
  split
  · split
    · exact ⟨Part.beginBurst_onlyConverter _ _ _ _ _, Part.beginBurst_sameRequests _ _ _ _ _⟩
    · split
      · exact ⟨rfl, .refl _⟩
      · dsimp only
        split
        · exact ⟨.trans (Part.modConv_onlyConverter _ _) (Part.beginBurst_onlyConverter _ _ _ _ _),
            .trans (q := p.modConv _) ⟨rfl, rfl, rfl, rfl, rfl⟩ (Part.beginBurst_sameRequests _ _ _ _ _)⟩
        · exact ⟨Part.beginBurst_onlyConverter _ _ _ _ _, Part.beginBurst_sameRequests _ _ _ _ _⟩
  · exact ⟨rfl, .refl _⟩

theorem Part.afterBurst_only (p : Part) : p.OnlyConverter p.afterBurst ∧ p.SameRequests p.afterBurst := by
  unfold Part.afterBurst
  split
  · exact ⟨rfl, ⟨rfl, rfl, rfl, rfl, rfl⟩⟩
  · exact Part.tryBurst_only p

/-- A withdrawal removes one request; what else it does stays with the converter, the lend state and the link. -/
theorem Part.withdraw_only (p : Part) (f : FixtureIx) :
    p.OnlyConverter (p.withdraw f) ∧ (p.modConv fun v => v.setReq f none).SameRequests (p.withdraw f) := by
  unfold Part.withdraw
  dsimp only
  split
  · exact ⟨rfl, .refl _⟩
  · split
    · split
      · exact ⟨.trans (q := (p.modConv fun v => v.setReq f none).dropBurst) rfl (Part.afterBurst_only _).1,
          .trans (q := (p.modConv fun v => v.setReq f none).dropBurst) ⟨rfl, rfl, rfl, rfl, rfl⟩ (Part.afterBurst_only _).2⟩
      · exact ⟨rfl, ⟨rfl, rfl, rfl, rfl, rfl⟩⟩
    · exact ⟨rfl, .refl _⟩

theorem Converter.req_setReq (v : Converter) (f : FixtureIx) (r : Option ConvRequest) : (v.setReq f r).req f = r := by
  simp [Converter.setReq, Converter.req]

theorem Converter.req_setReq_ne (v : Converter) {f g : FixtureIx} (r : Option ConvRequest) (h : g ≠ f) :
    (v.setReq f r).req g = v.req g := by
  have : f.val ≠ g.val := fun e => h (Fin.ext e.symm)
  simp [Converter.setReq, Converter.req, this]

/-! ## The end of a step -/

/-- What the end of the step in flight of `f` leaves alone and what it may change beside the step's own fields. -/
structure Part.Released (f : FixtureIx) (p q : Part) : Prop where
  fixture : { q.fx f with supply := { (q.fx f).supply with range := (p.fx f).supply.range }, capture := (p.fx f).capture
                          inflight := (p.fx f).inflight } = p.fx f
  present : (q.fx f).inflight.isSome = (p.fx f).inflight.isSome
  range : (q.fx f).supply.range = (p.fx f).supply.range ∨ (q.fx f).supply.range = .high
  others : ∀ g, g ≠ f → q.fx g = p.fx g
  channels : q.channels = p.channels
  requests : ∀ g, g ≠ f → q.conv.req g = p.conv.req g
  own : q.conv.req f = p.conv.req f ∨ q.conv.req f = none
  values : q.conv.cref = p.conv.cref ∧ q.conv.refFault = p.conv.refFault ∧ q.conv.reference = p.conv.reference ∧
    q.conv.refDue = p.conv.refDue
  console : q.con (consoleFor f) = p.con (consoleFor f) ∨
    q.con (consoleFor f) = { p.con (consoleFor f) with
      entries := (p.con (consoleFor f)).entries.filter fun e => !(e.owner = f && !e.isSafety) }
  other : ∀ k, k ≠ consoleFor f → q.con k = p.con k
  rest : { q with fixtures := p.fixtures, conv := p.conv, lend := p.lend, consoleA := p.consoleA, consoleB := p.consoleB
                  link := p.link } = p

theorem Part.Released.refl (f : FixtureIx) (p : Part) : p.Released f p :=
  ⟨rfl, rfl, .inl rfl, fun _ _ => rfl, rfl, fun _ _ => rfl, .inl rfl, ⟨rfl, rfl, rfl, rfl⟩, .inl rfl, fun _ _ => rfl, rfl⟩

theorem Part.withdraw_released (p : Part) (f : FixtureIx) : p.Released f (p.withdraw f) := by
  obtain ⟨h, k⟩ := p.withdraw_only f
  have hr : ∀ g, (p.withdraw f).conv.req g = (p.conv.setReq f none).req g := by
    intro g; simp only [Converter.req, k.requests]; rfl
  refine ⟨by rw [h.fx f], by rw [h.fx f], .inl (by rw [h.fx f]), fun g _ => h.fx g, h.channels, fun g hg => ?_, .inr ?_,
    ⟨k.cref, k.refFault, k.reference, k.refDue⟩, .inl (h.con _), fun k _ => h.con k, ?_⟩
  · rw [hr, Converter.req_setReq_ne _ _ hg]
  · rw [hr, Converter.req_setReq]
  · exact h.rest

/-- A QUIESCENT step told to clear below_since differs in that field alone. -/
theorem clearBelow_fixture (p : Part) (f : FixtureIx) :
    { (p.clearBelow f).fx f with inflight := (p.fx f).inflight } = p.fx f ∧
      ((p.clearBelow f).fx f).inflight.isSome = (p.fx f).inflight.isSome := by
  unfold Part.clearBelow
  rw [Part.modFx_fx]
  split
  · rename_i i hi
    split
    · exact ⟨rfl, by simp [hi]⟩
    · exact ⟨rfl, rfl⟩
  · exact ⟨rfl, rfl⟩

theorem clearBelow_fx_ne (p : Part) {f g : FixtureIx} (h : g ≠ f) : (p.clearBelow f).fx g = p.fx g :=
  Part.modFx_fx_ne p _ h

theorem Part.Released.trans {f : FixtureIx} {p q r : Part} (h : p.Released f q) (k : q.Released f r) : p.Released f r := by
  have hs : ∀ x y : Fixture, { x with supply := { x.supply with range := y.supply.range }, capture := y.capture, inflight := y.inflight } = y →
      x = { y with supply := { y.supply with range := x.supply.range }, capture := x.capture, inflight := x.inflight } := by
    intro x y h; rw [← h]
  have h1 := hs _ _ h.fixture
  have k1 := hs _ _ k.fixture
  refine ⟨?_, k.present.trans h.present, ?_, fun g hg => (k.others g hg).trans (h.others g hg), k.channels.trans h.channels,
    fun g hg => (k.requests g hg).trans (h.requests g hg), ?_,
    ⟨k.values.1.trans h.values.1, k.values.2.1.trans h.values.2.1, k.values.2.2.1.trans h.values.2.2.1,
      k.values.2.2.2.trans h.values.2.2.2⟩, ?_,
    fun c hc => (k.other c hc).trans (h.other c hc), ?_⟩
  · rw [k1, h1]
  · rcases k.range with e | e
    · rcases h.range with e' | e'
      · exact .inl (e.trans e')
      · exact .inr (e.trans e')
    · exact .inr e
  · rcases k.own with e | e
    · rw [e]; exact h.own
    · exact .inr e
  · rcases k.console with e | e
    · rw [e]; exact h.console
    · rcases h.console with e' | e'
      · rw [e, e']; exact .inr rfl
      · rw [e, e']; refine .inr ?_; simp [List.filter_filter]
  · have := h.rest; have := k.rest
    rw [← h.rest, ← k.rest]

theorem Part.clearBelow_released (p : Part) (f : FixtureIx) : p.Released f (p.clearBelow f) := by
  obtain ⟨a, a'⟩ := clearBelow_fixture p f
  have e : (p.clearBelow f).fx f = { p.fx f with inflight := ((p.clearBelow f).fx f).inflight } := by rw [← a]
  exact ⟨by rw [e], a', .inl (by rw [e]), fun g h => clearBelow_fx_ne p h, rfl, fun _ _ => rfl, .inl rfl, ⟨rfl, rfl, rfl, rfl⟩,
    .inl rfl, fun k _ => rfl, rfl⟩

theorem Part.rangeHigh_released (p : Part) (f : FixtureIx) : p.Released f (p.rangeHigh f) := by
  unfold Part.rangeHigh
  split
  · unfold Part.changeRange
    refine Part.Released.trans (q := (p.modSupply f fun s => { s with range := .high }).modConv _) ?_ (Part.clearBelow_released _ f)
    refine ⟨?_, ?_, .inr ?_, fun g h => ?_, rfl, fun _ _ => rfl, .inl rfl, ⟨rfl, rfl, rfl, rfl⟩, .inl rfl, fun k _ => rfl, rfl⟩
    · rw [Part.modConv_fx, Part.modSupply_fx]
    · rw [Part.modConv_fx, Part.modSupply_fx]
    · rw [Part.modConv_fx, Part.modSupply_fx]
    · rw [Part.modConv_fx, Part.modSupply_fx_ne _ _ h]
  · exact .refl f p

theorem Part.removeNormal_released (p : Part) (f : FixtureIx) : p.Released f (p.removeNormal f) := by
  unfold Part.removeNormal
  refine ⟨by simp, by simp, .inl (by simp), fun g h => by simp, by simp, fun _ _ => by simp, .inl (by simp), by simp,
    .inr (by simp), fun k hk => ?_, ?_⟩
  · generalize consoleFor f = c at hk
    cases k <;> cases c <;> first | rfl | exact absurd rfl hk
  · generalize consoleFor f = c
    cases c <;> rfl

theorem Part.releaseStep_released (p : Part) (f : FixtureIx) : p.Released f (p.releaseStep f) := by
  unfold Part.releaseStep
  split
  · exact .refl f p
  · split
    · exact .refl f p
    · exact .refl f p
    · exact (p.withdraw_released f).trans (Part.rangeHigh_released _ f)
    · exact p.withdraw_released f
    · refine ⟨by rw [Part.modFx_fx], by rw [Part.modFx_fx], .inl (by rw [Part.modFx_fx]), fun g h => Part.modFx_fx_ne p _ h, rfl,
        fun _ _ => rfl, .inl rfl, ⟨rfl, rfl, rfl, rfl⟩, .inl rfl, fun k _ => rfl, rfl⟩
    · exact p.removeNormal_released f

/-- The fixture of a released step: its range, its capture unit and the step in flight may differ. -/
theorem Part.Released.fx_eq {f : FixtureIx} {p q : Part} (h : p.Released f q) :
    q.fx f = { p.fx f with supply := { (p.fx f).supply with range := (q.fx f).supply.range }, capture := (q.fx f).capture
                           inflight := (q.fx f).inflight } := by
  rw [← h.fixture]

/-- The step in flight that ends: nothing happens without one. -/
theorem Part.finishStep_none {p : Part} {f : FixtureIx} (h : (p.fx f).inflight = none) (e : StepEnd) : p.finishStep f e = p := by
  simp [Part.finishStep, h]

theorem Part.finishStep_some {p : Part} {f : FixtureIx} {i : InFlight} (h : (p.fx f).inflight = some i) (e : StepEnd) :
    p.finishStep f e = (p.releaseStep f).modFx f fun x =>
      { x with log := x.log ++ [(p.releaseStep f).resultOf f i e], inflight := none
               run := { x.run with seq := nextSeq x.run.seq, verdict := x.run.verdict.max e.verdict
                                   stepsDone := sat16 (x.run.stepsDone + 1) } } := by
  simp [Part.finishStep, h]

theorem Part.Released.uptime {f : FixtureIx} {p q : Part} (h : p.Released f q) : q.uptime = p.uptime := by
  have := congrArg Part.clock h.rest
  simp only at this
  simp only [Part.uptime, this]

theorem Part.Released.clock {f : FixtureIx} {p q : Part} (h : p.Released f q) : q.clock = p.clock := by
  have := congrArg Part.clock h.rest
  exact this

theorem Part.Released.resultOf {f : FixtureIx} {p q : Part} (h : p.Released f q) (i : InFlight) (e : StepEnd) :
    q.resultOf f i e = p.resultOf f i e := by
  have hr : (q.fx f).run = (p.fx f).run := by rw [h.fx_eq]
  simp only [Part.resultOf, Part.msSince, h.uptime, hr]

/-- The queue and the record of a run once its step in flight, if there was one, has been recorded with an end. -/
theorem Part.finishStep_fx (p : Part) (f : FixtureIx) (e : StepEnd) :
    ∃ r c, (r = (p.fx f).supply.range ∨ r = .high) ∧
      (p.finishStep f e).fx f = { p.fx f with
        supply := { (p.fx f).supply with range := r }
        capture := c
        inflight := none
        log := (p.fx f).log ++ ((p.fx f).inflight.map fun i => p.resultOf f i e).toList
        run := if (p.fx f).inflight = none then (p.fx f).run else
          { (p.fx f).run with seq := nextSeq (p.fx f).run.seq, verdict := (p.fx f).run.verdict.max e.verdict
                              stepsDone := sat16 ((p.fx f).run.stepsDone + 1) } } := by
  cases h : (p.fx f).inflight with
  | none =>
    refine ⟨(p.fx f).supply.range, (p.fx f).capture, .inl rfl, ?_⟩
    rw [Part.finishStep_none h]
    cases hx : p.fx f
    simp_all
  | some i =>
    have k := p.releaseStep_released f
    refine ⟨((p.releaseStep f).fx f).supply.range, ((p.releaseStep f).fx f).capture, k.range, ?_⟩
    rw [Part.finishStep_some h, Part.modFx_fx, k.resultOf, k.fx_eq]
    simp

/-- What the end of a step leaves alone. -/
theorem Part.finishStep_rest (p : Part) (f : FixtureIx) (e : StepEnd) :
    (∀ g, g ≠ f → (p.finishStep f e).fx g = p.fx g) ∧ (p.finishStep f e).channels = p.channels ∧
      ∃ q, p.Released f q ∧ { p.finishStep f e with fixtures := q.fixtures } = q := by
  cases h : (p.fx f).inflight with
  | none =>
    rw [Part.finishStep_none h]
    exact ⟨fun _ _ => rfl, rfl, p, .refl f p, rfl⟩
  | some i =>
    have k := p.releaseStep_released f
    rw [Part.finishStep_some h]
    exact ⟨fun g hg => (Part.modFx_fx_ne _ _ hg).trans (k.others g hg), k.channels, _, k, rfl⟩

/-! ## Entry to HALTING -/

theorem Part.modFx_modFx (p : Part) (f : FixtureIx) (g h : Fixture → Fixture) :
    (p.modFx f g).modFx f h = p.modFx f fun x => h (g x) := by
  simp [Part.modFx, Part.fx]

/-- Two changes of a fixture that agree on it are the same change. -/
theorem Part.modFx_congr {p : Part} {f : FixtureIx} {g h : Fixture → Fixture} (e : g (p.fx f) = h (p.fx f)) :
    p.modFx f g = p.modFx f h := by
  simp only [Part.modFx, e]

/-- A change that leaves the fixture as it is changes nothing. -/
theorem Part.modFx_self {p : Part} {f : FixtureIx} {g : Fixture → Fixture} (e : g (p.fx f) = p.fx f) : p.modFx f g = p := by
  simp only [Part.modFx, e]; simp [Part.fx]

theorem Part.modSupply_modSupply (p : Part) (f : FixtureIx) (g h : Supply → Supply) :
    (p.modSupply f g).modSupply f h = p.modSupply f fun s => h (g s) := by
  simp only [Part.modSupply, Part.modFx_modFx]

theorem Part.rangeHigh_range (p : Part) (f : FixtureIx) : ((p.rangeHigh f).fx f).supply.range = .high := by
  unfold Part.rangeHigh
  split
  · unfold Part.changeRange
    rw [(Part.clearBelow_released _ f).fx_eq]
    rcases (Part.clearBelow_released ((p.modSupply f fun s => { s with range := .high }).modConv _) f).range with e | e
    · rw [e]; simp
    · rw [e]
  · rename_i h
    cases hx : (p.fx f).supply.range
    · rfl
    · exact absurd hx h

theorem clearBelow_capture (p : Part) (f : FixtureIx) : ((p.clearBelow f).fx f).capture = (p.fx f).capture := by
  have := congrArg Fixture.capture (clearBelow_fixture p f).1
  exact this

theorem rangeHigh_capture (p : Part) (f : FixtureIx) : ((p.rangeHigh f).fx f).capture = (p.fx f).capture := by
  unfold Part.rangeHigh
  split
  · unfold Part.changeRange
    rw [clearBelow_capture, Part.modConv_fx, Part.modSupply_fx]
  · rfl

/-- A disconnected supply: DISCHARGE with the reason, or at once OFF or TRIPPED when its output is already below 500 mV. -/
theorem Part.disconnect_eq (p : Part) (f : FixtureIx) (r : TripReason) :
    p.Released f ((p.rangeHigh f).clearBelow f) ∧ (((p.rangeHigh f).clearBelow f).fx f).supply.range = .high ∧
      (((p.rangeHigh f).clearBelow f).fx f).capture = (p.fx f).capture ∧
      p.disconnect f r = ((p.rangeHigh f).clearBelow f).modSupply f fun s =>
        { s with
          state := if s.below500 then (if r = .none then .off else .tripped) else .discharge
          tripReason := r, since := p.clock, atLimit := false
          residual := if s.below500 = true ∧ r ≠ .none then false else s.residual } := by
  have k := (p.rangeHigh_released f).trans (Part.clearBelow_released _ f)
  refine ⟨k, ?_, by rw [clearBelow_capture, rangeHigh_capture], ?_⟩
  · rcases (Part.clearBelow_released (p.rangeHigh f) f).range with e | e
    · rw [e, Part.rangeHigh_range]
    · exact e
  · unfold Part.disconnect Part.endDischarge Part.enterSupply
    rw [← k.clock]
    generalize (p.rangeHigh f).clearBelow f = q
    simp only [Part.modSupply_fx, Part.modSupply_modSupply, Part.modSupply_clock]
    cases hb : (q.fx f).supply.below500 <;> by_cases hr : r = .none <;>
      simp [hr, Part.modSupply, Part.modFx, hb]

/-- A supply that is cut: DISCHARGE, or OFF at once when its output is already below 500 mV. -/
theorem Part.cutSupply_eq {p : Part} {f : FixtureIx} (hr : (p.fx f).run.state ≠ .halting) :
    (p.cutSupply f = p ∧ (p.fx f).supply.live = false) ∨
    ((p.fx f).supply.live = true ∧ ∃ q, p.Released f q ∧ (q.fx f).supply.range = .high ∧
      (q.fx f).capture = (p.fx f).capture ∧
      p.cutSupply f = q.modSupply f fun s =>
        { s with state := if s.below500 then .off else .discharge, tripReason := .none, since := p.clock, atLimit := false }) := by
  unfold Part.cutSupply
  split
  · rename_i hl
    obtain ⟨a, b, d, c⟩ := p.disconnect_eq f .none
    refine .inr ⟨hl, _, a, b, d, ?_⟩
    have hs : ((p.disconnect f .none).fx f).run.state = (p.fx f).run.state := by
      rw [c, Part.modSupply_fx, a.fx_eq]
    unfold Part.endRun
    rw [if_neg (by rw [hs]; exact fun h => hr h.1), c]
    simp
  · rename_i hl
    exact .inl ⟨rfl, by simpa using hl⟩

/-- The fixture after entry to HALTING, but for its capture unit's last counts and its attempt. -/
theorem Part.enterHalting_fx {p : Part} {f : FixtureIx} (h : (p.fx f).run.isOpen = true) (r : HaltReason) :
    ∃ (c : Capture) (rg : Range), (rg = (p.fx f).supply.range ∨ rg = .high) ∧
      let supply : Supply := if (p.fx f).supply.live then
          { (p.fx f).supply with
            state := if (p.fx f).supply.below500 then .off else .discharge, tripReason := .none, range := .high
            since := p.clock, atLimit := false }
        else { (p.fx f).supply with range := rg }
      let ended : Bool := supply.state = .off || supply.state = .tripped
      (p.enterHalting f r).fx f = { p.fx f with
        supply := supply
        outs := { pins := (p.fx f).outs.pins }
        capture := { c with state := .idle }
        inflight := none
        queue := []
        stalled := false
        port := if ended then (p.fx f).port.flush.shut else (p.fx f).port.flush
        log := (p.fx f).log ++ ((p.fx f).inflight.map fun i => p.resultOf f i (.incomplete .aborted)).toList
        run := { (p.fx f).run with
          state := if ended then .ended else .halting
          haltReason := r
          seq := if (p.fx f).inflight = none then (p.fx f).run.seq else nextSeq (p.fx f).run.seq
          stepsDone := if (p.fx f).inflight = none then (p.fx f).run.stepsDone else sat16 ((p.fx f).run.stepsDone + 1)
          verdict := if r = .none ∧ (p.fx f).inflight = none then (p.fx f).run.verdict else (p.fx f).run.verdict.max .incomplete
          skipped := sat16 ((p.fx f).run.skipped + (p.fx f).queue.length)
          skipping := false } } := by
  obtain ⟨rg, c, hrg, e⟩ := p.finishStep_fx f (.incomplete .aborted)
  refine ⟨c, rg, hrg, ?_⟩
  intro supply ended
  unfold Part.enterHalting
  dsimp only
  obtain ⟨w1, w2⟩ := ((((p.finishStep f (.incomplete .aborted)).modFx f Fixture.dropQueue).removeNormal f).stopChannels f).withdraw_only f
  have hclk : ((((p.finishStep f (.incomplete .aborted)).modFx f Fixture.dropQueue).removeNormal f).stopChannels f).clock = p.clock := by
    obtain ⟨_, _, q, hq, k⟩ := p.finishStep_rest f (.incomplete .aborted)
    have : (p.finishStep f (.incomplete .aborted)).clock = q.clock := by
      have := congrArg Part.clock k
      exact this
    simp only [Part.stopChannels, Part.removeNormal, Part.modCon_clock, Part.modFx_clock, this, hq.clock]
  have e1 : (((((p.finishStep f (.incomplete .aborted)).modFx f Fixture.dropQueue).removeNormal f).stopChannels f).withdraw f).fx f =
      ((p.finishStep f (.incomplete .aborted)).fx f).dropQueue := by
    rw [w1.fx]
    have : ∀ q : Sys2Proof.Machine.Part, (q.stopChannels f).fx f = q.fx f := fun _ => rfl
    rw [this]
    simp [Part.removeNormal]
  have hc1 := w1.clock.trans hclk
  clear w1 w2
  generalize hA : (((((p.finishStep f (.incomplete .aborted)).modFx f Fixture.dropQueue).removeNormal f).stopChannels f).withdraw f) = A at e1 hc1 ⊢
  rw [e] at e1
  clear hA e
  have e2 : ((A.outputDefaults f).modPort f Port.flush).fx f =
      { A.fx f with outs := { pins := (A.fx f).outs.pins }, capture := { (A.fx f).capture with state := .idle }
                    port := (A.fx f).port.flush } := by
    simp [Part.outputDefaults]
  have hc2 : ((A.outputDefaults f).modPort f Port.flush).clock = p.clock := by simp [Part.outputDefaults, hc1]
  generalize (A.outputDefaults f).modPort f Port.flush = B at e2 hc2 ⊢
  have hns : (B.fx f).run.state ≠ .halting := by
    rw [e2, e1]
    simp only [Run.isOpen, Bool.or_eq_true, decide_eq_true_eq] at h
    simp only [Fixture.dropQueue]
    split <;> simp <;> rcases h with h | h <;> simp [h]
  have hsup : (B.fx f).supply = { (p.fx f).supply with range := rg } := by rw [e2, e1]; rfl
  have hlive : (B.fx f).supply.live = (p.fx f).supply.live := by rw [hsup]; rfl
  have key : (B.cutSupply f).fx f = { B.fx f with supply := supply } := by
    rcases Part.cutSupply_eq hns with ⟨h1, h2⟩ | ⟨h1, q, hq, hr, hcap, h2⟩
    · rw [hlive] at h2
      rw [h1]
      simp only [supply, h2, Bool.false_eq_true, if_false, ← hsup]
    · rw [hlive] at h1
      have hin : (q.fx f).inflight = none := by
        have := hq.present
        rw [e2, e1] at this
        simpa [Fixture.dropQueue] using this
      have hin' : (B.fx f).inflight = none := by rw [e2, e1]; rfl
      rw [h2, Part.modSupply_fx, hq.fx_eq, hr, hc2, hin, hcap, ← hin']
      simp only [supply, h1, if_true, hsup]
  generalize B.cutSupply f = C at key ⊢
  have hC : (C.fx f).supply = supply := by rw [key]
  unfold Part.endRun Part.postRunState
  simp only [Part.post_fx, Part.modRun_fx, hC, true_and]
  have hended : (supply.state = .off ∨ supply.state = .tripped) ↔ ended = true := by
    simp [ended]
  by_cases hE : ended = true
  · rw [if_pos (hended.mpr hE)]
    simp only [Part.post_fx, Part.modFx_fx, Part.modRun_fx, key, e2, e1, hE, if_true, Fixture.dropQueue, Port.flush, Port.shut, Port.orphaned]
    cases hi : (p.fx f).inflight <;> simp
    cases (p.fx f).run.verdict <;> simp [StepEnd.incomplete, Verdict.max]
  · rw [if_neg (fun h => hE (hended.mp h))]
    simp only [Part.post_fx, Part.modRun_fx, key, e2, e1, hE, Bool.false_eq_true, if_false, Fixture.dropQueue, Port.flush, Port.orphaned]
    cases hi : (p.fx f).inflight <;> simp
    cases (p.fx f).run.verdict <;> simp [StepEnd.incomplete, Verdict.max]

/-- What an operation on one fixture leaves alone beside it. -/
structure Part.Around (f : FixtureIx) (p q : Part) : Prop where
  others : ∀ g, g ≠ f → q.fx g = p.fx g
  channels : q.channels = p.channels
  requests : ∀ g, g ≠ f → q.conv.req g = p.conv.req g
  own : q.conv.req f = p.conv.req f ∨ q.conv.req f = none
  values : q.conv.cref = p.conv.cref ∧ q.conv.refFault = p.conv.refFault
  console : q.con (consoleFor f) = p.con (consoleFor f) ∨
    q.con (consoleFor f) = { p.con (consoleFor f) with
      entries := (p.con (consoleFor f)).entries.filter fun e => !(e.owner = f && !e.isSafety) }
  other : ∀ k, k ≠ consoleFor f → q.con k = p.con k
  rest : { q with fixtures := p.fixtures, conv := p.conv, lend := p.lend, consoleA := p.consoleA, consoleB := p.consoleB
                  link := p.link } = p

theorem Part.Released.around {f : FixtureIx} {p q : Part} (h : p.Released f q) : p.Around f q :=
  ⟨h.others, h.channels, h.requests, h.own, ⟨h.values.1, h.values.2.1⟩, h.console, h.other, h.rest⟩

theorem Part.modFx_around (p : Part) (f : FixtureIx) (g : Fixture → Fixture) : p.Around f (p.modFx f g) :=
  ⟨fun _ h => Part.modFx_fx_ne p _ h, rfl, fun _ _ => rfl, .inl rfl, ⟨rfl, rfl⟩, .inl rfl, fun _ _ => rfl, rfl⟩

theorem Part.post_around (p : Part) (f : FixtureIx) (n : Notice) : p.Around f (p.post n) :=
  ⟨fun _ _ => rfl, rfl, fun _ _ => rfl, .inl rfl, ⟨rfl, rfl⟩, .inl rfl, fun _ _ => rfl, rfl⟩

theorem Part.Around.refl (f : FixtureIx) (p : Part) : p.Around f p := (Part.Released.refl f p).around

theorem Part.Around.trans {f : FixtureIx} {p q r : Part} (h : p.Around f q) (k : q.Around f r) : p.Around f r := by
  refine ⟨fun g hg => (k.others g hg).trans (h.others g hg), k.channels.trans h.channels,
    fun g hg => (k.requests g hg).trans (h.requests g hg), ?_, ⟨k.values.1.trans h.values.1, k.values.2.trans h.values.2⟩, ?_,
    fun c hc => (k.other c hc).trans (h.other c hc), ?_⟩
  · rcases k.own with e | e
    · rw [e]; exact h.own
    · exact .inr e
  · rcases k.console with e | e
    · rw [e]; exact h.console
    · rcases h.console with e' | e'
      · rw [e, e']; exact .inr rfl
      · rw [e, e']; refine .inr ?_; simp [List.filter_filter]
  · rw [← h.rest, ← k.rest]

theorem Part.endRun_around (p : Part) (f : FixtureIx) : p.Around f (p.endRun f) := by
  unfold Part.endRun
  split
  · exact (p.modFx_around f _).trans (Part.post_around _ f _)
  · exact .refl f p

theorem Part.cutSupply_around (p : Part) (f : FixtureIx) : p.Around f (p.cutSupply f) := by
  unfold Part.cutSupply
  split
  · obtain ⟨a, _, _, c⟩ := p.disconnect_eq f .none
    rw [c]
    exact (a.around.trans (Part.modFx_around _ f _)).trans (Part.endRun_around _ f)
  · exact .refl f p

theorem Part.finishStep_around (p : Part) (f : FixtureIx) (e : StepEnd) : p.Around f (p.finishStep f e) := by
  cases h : (p.fx f).inflight with
  | none => rw [Part.finishStep_none h]; exact .refl f p
  | some i => rw [Part.finishStep_some h]; exact (p.releaseStep_released f).around.trans (Part.modFx_around _ f _)

/-- What entry to HALTING leaves alone, and what it does beyond its fixture. -/
theorem Part.enterHalting_rest (p : Part) (f : FixtureIx) (r : HaltReason) :
    (∀ g, g ≠ f → (p.enterHalting f r).fx g = p.fx g) ∧
      (p.enterHalting f r).channels = mapEntries (fun ch => if ch.boundTo f then ch.halted else ch) p.channels ∧
      (p.enterHalting f r).conv.req f = none ∧
      (∀ g, g ≠ f → (p.enterHalting f r).conv.req g = p.conv.req g) ∧
      (p.enterHalting f r).conv.cref = p.conv.cref ∧ (p.enterHalting f r).conv.refFault = p.conv.refFault ∧
      (p.enterHalting f r).con (consoleFor f) = { p.con (consoleFor f) with
        entries := (p.con (consoleFor f)).entries.filter fun e => !(e.owner = f && !e.isSafety) } ∧
      (∀ k, k ≠ consoleFor f → (p.enterHalting f r).con k = p.con k) ∧
      { p.enterHalting f r with fixtures := p.fixtures, channels := p.channels, conv := p.conv, lend := p.lend
                                consoleA := p.consoleA, consoleB := p.consoleB, link := p.link } = p := by
  have h1 : p.Around f ((p.finishStep f (.incomplete .aborted)).modFx f Fixture.dropQueue) :=
    (p.finishStep_around f _).trans (Part.modFx_around _ f _)
  unfold Part.enterHalting
  dsimp only
  generalize (p.finishStep f (.incomplete .aborted)).modFx f Fixture.dropQueue = A at h1 ⊢
  have h2 : p.Around f (A.removeNormal f) := h1.trans (A.removeNormal_released f).around
  have c2 : (A.removeNormal f).con (consoleFor f) = { p.con (consoleFor f) with
      entries := (p.con (consoleFor f)).entries.filter fun e => !(e.owner = f && !e.isSafety) } := by
    rcases h1.console with e | e
    · simp [Part.removeNormal, e]
    · simp [Part.removeNormal, e, List.filter_filter]
  generalize A.removeNormal f = B at h2 c2 ⊢
  have hw := (B.stopChannels f).withdraw_released f
  have ho : ((B.stopChannels f).withdraw f).conv.req f = none := by
    have := ((B.stopChannels f).withdraw_only f).2.requests
    simp only [Converter.req, this]
    exact Converter.req_setReq _ f none
  have h3 : (B.stopChannels f).Around f (((((B.stopChannels f).withdraw f).outputDefaults f).modPort f Port.flush).cutSupply f) :=
    ((hw.around.trans (Part.modFx_around _ f _)).trans (Part.modFx_around _ f _)).trans (Part.cutSupply_around _ f)
  have h4 : ((B.stopChannels f).withdraw f).Around f
      (((((B.stopChannels f).withdraw f).outputDefaults f).modPort f Port.flush).cutSupply f) :=
    ((Part.modFx_around _ f _).trans (Part.modFx_around _ f _)).trans (Part.cutSupply_around _ f)
  generalize ((((B.stopChannels f).withdraw f).outputDefaults f).modPort f Port.flush).cutSupply f = C at h3 h4 ⊢
  have h5 : ∀ u : Run → Run, C.Around f (((C.modRun f u).postRunState f).endRun f) := fun u =>
    ((C.modFx_around f _).trans (Part.post_around _ f _)).trans (Part.endRun_around _ f)
  have h6 := h3.trans (h5 fun u =>
    { u with state := .halting, haltReason := r, verdict := if r = .none then u.verdict else u.verdict.max .incomplete })
  have h7 := h4.trans (h5 fun u =>
    { u with state := .halting, haltReason := r, verdict := if r = .none then u.verdict else u.verdict.max .incomplete })
  generalize ((C.modRun f fun u =>
    { u with state := .halting, haltReason := r, verdict := if r = .none then u.verdict else u.verdict.max .incomplete }).postRunState f).endRun f = q at h6 h7 ⊢
  have hB : ∀ k, (B.stopChannels f).con k = B.con k := fun _ => rfl
  refine ⟨fun g hg => (h6.others g hg).trans (h2.others g hg), ?_, ?_, fun g hg => (h6.requests g hg).trans (h2.requests g hg),
    h6.values.1.trans h2.values.1, h6.values.2.trans h2.values.2, ?_, fun k hk => (h6.other k hk).trans (h2.other k hk), ?_⟩
  · rw [h6.channels, ← h2.channels]; rfl
  · rcases h7.own with e | e
    · exact e.trans ho
    · exact e
  · rcases h6.console with e | e
    · rw [e, hB, c2]
    · rw [e, hB, c2]; simp [List.filter_filter]
  · have a := congrArg (fun x : Sys2Proof.Machine.Part =>
      { x with fixtures := p.fixtures, channels := p.channels, conv := p.conv, lend := p.lend, consoleA := p.consoleA
               consoleB := p.consoleB, link := p.link }) h6.rest
    have b := congrArg (fun x : Sys2Proof.Machine.Part => { x with channels := p.channels }) h2.rest
    exact a.trans b

/-- The line interface finishes the head that was on the bus. -/
theorem Port.orphaned_head {t : Port} {h : TxFrame} {rest : List TxFrame} (ha : t.attempt = .head) (hq : t.queue = h :: rest) :
    t.orphaned = .orphan h := by simp [Port.orphaned, ha, hq]

/-- No other attempt is touched by a flush. -/
theorem Port.orphaned_of_ne {t : Port} (ha : t.attempt ≠ .head) : t.orphaned = t.attempt := by
  unfold Port.orphaned
  split <;> simp_all

/-- No attempt is on a head after a flush. -/
theorem Port.orphaned_ne_head (t : Port) : t.orphaned ≠ .head := by
  unfold Port.orphaned
  split
  · cases t.queue <;> simp
  · assumption

/-- Entry to HALTING, whole. -/
theorem Part.enterHalting_halted {p : Part} {f : FixtureIx} (h : (p.fx f).run.isOpen = true) (r : HaltReason) :
    p.Halted f r (p.enterHalting f r) := by
  obtain ⟨c, rg, hrg, e⟩ := Part.enterHalting_fx h r
  obtain ⟨a1, a2, a3, a4, a5, a6, a7, a8, a9⟩ := p.enterHalting_rest f r
  generalize p.enterHalting f r = q at *
  dsimp only at e
  have hch : ∀ c, q.ch c = if (p.ch c).boundTo f then (p.ch c).halted else p.ch c := by
    intro c
    have : q.ch c = (mapEntries (fun ch => if ch.boundTo f then ch.halted else ch) p.channels)[c.val] := by rw [← a2]; rfl
    rw [this, getElem_mapEntries]
    rfl
  refine { state := ?_, reason := by rw [e], verdict := by rw [e], counts := ?_, record := by rw [e]; exact ⟨rfl, rfl, rfl, rfl, rfl, rfl⟩, steps := by rw [e]; exact ⟨rfl, rfl, rfl⟩
           log := ?_, outputs := by rw [e]; exact ⟨rfl, rfl⟩, port := ?_, supplyCut := ?_, supplyKept := ?_, sense := by rw [e]; exact ⟨rfl, rfl⟩
           others := a1, bound := ?_, unbound := ?_, request := ⟨a3, a4, a5, a6⟩, console := ⟨a7, a8⟩, rest := a9 }
  · rw [e]; simp only [Bool.or_eq_true, decide_eq_true_eq]
  · rw [e]; exact ⟨rfl, rfl, rfl⟩
  · rw [e]
    cases hi : (p.fx f).inflight with
    | none => rfl
    | some i => rfl
  · rw [e]
    simp only [Bool.or_eq_true, decide_eq_true_eq]
    generalize (if (p.fx f).supply.live = true then _ else _ : Supply) = u
    by_cases hh : u.state = .off ∨ u.state = .tripped <;> simp only [hh, if_true, if_false] <;>
      exact ⟨rfl, rfl, rfl, fun _ _ ha hq => Port.orphaned_head ha hq, fun ha => Port.orphaned_of_ne ha, Port.orphaned_ne_head _⟩
  · intro hl; rw [e]; simp [hl]
  · intro hl; rw [e]; simp [hl]
  · intro c hc hs
    have : (p.ch c).boundTo f = true := hc
    rw [hch c, this]
    simp only [if_true, Channel.halted]
    rcases hs with hs | hs <;> simp [hs]
  · intro c hc
    rw [hch c]
    rcases hc with hc | ⟨hc, hc'⟩
    · have : (p.ch c).boundTo f = false := hc
      simp [this]
    · simp [Channel.halted, hc, hc']

end Sys2Proof.Machine
end

