-- ==== Sys2Proof/Laws/Steps.lean ====
section
/-! SUPPORT. What time, the queue of a run, the end of a step and a converter request do in the plain cases: a proof about one command
cites these and unfolds the command's own operation alone. -/

namespace Sys2Proof.Machine

open Sys2Proof

/-! ## Time -/

/-- Time changes the totals of a capture unit that counts, and nothing else of a fixture. -/
theorem Fixture.count_eq (us : Nat) (x : Fixture) : x.count us = { x with capture := (x.count us).capture } := by
  unfold Fixture.count; split <;> rfl

theorem Fixture.count_capture (us : Nat) (x : Fixture) :
    (x.count us).capture.state = x.capture.state ∧ (x.count us).capture.line = x.capture.line ∧
      (x.count us).capture.window = x.capture.window ∧ (x.count us).capture.periods = x.capture.periods := by
  unfold Fixture.count
  split
  · rename_i h; exact ⟨rfl, rfl, rfl, rfl⟩
  · exact ⟨rfl, rfl, rfl, rfl⟩

theorem Part.advanceTo_past {p : Part} {t : Nat} (h : t ≤ p.clock) : p.advanceTo t = p := by simp [Part.advanceTo, h]

theorem Part.advanceTo_fx (p : Part) (t : Nat) (f : FixtureIx) :
    (p.advanceTo t).fx f = p.fx f ∨ (p.advanceTo t).fx f = (p.fx f).count (t - p.clock) := by
  unfold Part.advanceTo
  split
  · exact .inl rfl
  · right; simp [Part.fx]

/-- A fixture after time has passed: its capture unit alone may have counted. -/
theorem Part.advanceTo_fx_eq (p : Part) (t : Nat) (f : FixtureIx) :
    (p.advanceTo t).fx f = { p.fx f with capture := ((p.advanceTo t).fx f).capture } := by
  rcases p.advanceTo_fx t f with h | h
  · rw [h]
  · rw [h]; exact Fixture.count_eq _ _

@[simp] theorem Part.advanceTo_fx_run (p : Part) (t : Nat) (f : FixtureIx) : ((p.advanceTo t).fx f).run = (p.fx f).run := by
  rw [Part.advanceTo_fx_eq]
@[simp] theorem Part.advanceTo_fx_inflight (p : Part) (t : Nat) (f : FixtureIx) :
    ((p.advanceTo t).fx f).inflight = (p.fx f).inflight := by rw [Part.advanceTo_fx_eq]
@[simp] theorem Part.advanceTo_fx_queue (p : Part) (t : Nat) (f : FixtureIx) : ((p.advanceTo t).fx f).queue = (p.fx f).queue := by
  rw [Part.advanceTo_fx_eq]
@[simp] theorem Part.advanceTo_fx_log (p : Part) (t : Nat) (f : FixtureIx) : ((p.advanceTo t).fx f).log = (p.fx f).log := by
  rw [Part.advanceTo_fx_eq]
@[simp] theorem Part.advanceTo_fx_stalled (p : Part) (t : Nat) (f : FixtureIx) :
    ((p.advanceTo t).fx f).stalled = (p.fx f).stalled := by rw [Part.advanceTo_fx_eq]
@[simp] theorem Part.advanceTo_fx_supply (p : Part) (t : Nat) (f : FixtureIx) :
    ((p.advanceTo t).fx f).supply = (p.fx f).supply := by rw [Part.advanceTo_fx_eq]
@[simp] theorem Part.advanceTo_fx_sense (p : Part) (t : Nat) (f : FixtureIx) : ((p.advanceTo t).fx f).sense = (p.fx f).sense := by
  rw [Part.advanceTo_fx_eq]
@[simp] theorem Part.advanceTo_fx_outs (p : Part) (t : Nat) (f : FixtureIx) : ((p.advanceTo t).fx f).outs = (p.fx f).outs := by
  rw [Part.advanceTo_fx_eq]
@[simp] theorem Part.advanceTo_fx_port (p : Part) (t : Nat) (f : FixtureIx) : ((p.advanceTo t).fx f).port = (p.fx f).port := by
  rw [Part.advanceTo_fx_eq]
@[simp] theorem Part.advanceTo_fx_watch (p : Part) (t : Nat) (f : FixtureIx) : ((p.advanceTo t).fx f).watch = (p.fx f).watch := by
  rw [Part.advanceTo_fx_eq]
@[simp] theorem Part.advanceTo_fx_captureState (p : Part) (t : Nat) (f : FixtureIx) :
    ((p.advanceTo t).fx f).capture.state = (p.fx f).capture.state := by
  rcases p.advanceTo_fx t f with h | h
  · rw [h]
  · rw [h]; exact (Fixture.count_capture _ _).1

/-- What time leaves alone. -/
theorem Part.advanceTo_rest (p : Part) (t : Nat) : { p.advanceTo t with clock := p.clock, fixtures := p.fixtures } = p := by
  unfold Part.advanceTo; split <;> rfl

@[simp] theorem Part.advanceTo_clock (p : Part) (t : Nat) : (p.advanceTo t).clock = max p.clock t := by
  unfold Part.advanceTo
  split
  · rename_i h; exact (Nat.max_eq_left h).symm
  · rename_i h; simp only []; omega
@[simp] theorem Part.advanceTo_powered (p : Part) (t : Nat) : (p.advanceTo t).powered = p.powered := by
  unfold Part.advanceTo; split <;> rfl
@[simp] theorem Part.advanceTo_freeIndex (p : Part) (t : Nat) : (p.advanceTo t).freeIndex = p.freeIndex := by
  unfold Part.advanceTo; split <;> rfl
@[simp] theorem Part.advanceTo_conv (p : Part) (t : Nat) : (p.advanceTo t).conv = p.conv := by
  unfold Part.advanceTo; split <;> rfl
@[simp] theorem Part.advanceTo_lend (p : Part) (t : Nat) : (p.advanceTo t).lend = p.lend := by
  unfold Part.advanceTo; split <;> rfl
@[simp] theorem Part.advanceTo_link (p : Part) (t : Nat) : (p.advanceTo t).link = p.link := by
  unfold Part.advanceTo; split <;> rfl
@[simp] theorem Part.advanceTo_rack (p : Part) (t : Nat) : (p.advanceTo t).rack = p.rack := by
  unfold Part.advanceTo; split <;> rfl
@[simp] theorem Part.advanceTo_flash (p : Part) (t : Nat) : (p.advanceTo t).flash = p.flash := by
  unfold Part.advanceTo; split <;> rfl
@[simp] theorem Part.advanceTo_channels (p : Part) (t : Nat) : (p.advanceTo t).channels = p.channels := by
  unfold Part.advanceTo; split <;> rfl
@[simp] theorem Part.advanceTo_pattern (p : Part) (t : Nat) : (p.advanceTo t).pattern = p.pattern := by
  unfold Part.advanceTo; split <;> rfl
@[simp] theorem Part.advanceTo_pathBusy (p : Part) (t : Nat) : (p.advanceTo t).pathBusy = p.pathBusy := by
  unfold Part.advanceTo; split <;> rfl
@[simp] theorem Part.advanceTo_probes (p : Part) (t : Nat) : (p.advanceTo t).probes = p.probes := by
  unfold Part.advanceTo; split <;> rfl
@[simp] theorem Part.advanceTo_ch (p : Part) (t : Nat) (c : ChannelIx) : (p.advanceTo t).ch c = p.ch c := by
  unfold Part.advanceTo; split <;> rfl
@[simp] theorem Part.advanceTo_con (p : Part) (t : Nat) (k : ConsoleId) : (p.advanceTo t).con k = p.con k := by
  unfold Part.advanceTo; split <;> cases k <;> rfl
@[simp] theorem Part.advanceTo_isFitted (p : Part) (t : Nat) (f : FixtureIx) : (p.advanceTo t).isFitted f = p.isFitted f := by
  unfold Part.advanceTo; split <;> rfl

/-! ## The head of the queue -/

theorem isMark_iff (st : Step) : st.isMark = true ↔ st.body = .mark := by
  unfold Step.isMark; cases st.body <;> simp

/-- With a step in flight the queue waits. -/
theorem Part.runQueueWith_inflight {grant : Part → Part} {f : FixtureIx} {n : Nat} {p : Part}
    (h : (p.fx f).inflight.isSome = true) : Part.runQueueWith grant f n p = p := by
  cases n
  · rfl
  · have : (p.fx f).inflight.isNone = false := by
      simpa [Option.isNone_iff_eq_none, Option.isSome_iff_ne_none] using h
    simp [Part.runQueueWith, this]

/-- Without an open run the queue waits. -/
theorem Part.runQueueWith_closed {grant : Part → Part} {f : FixtureIx} {n : Nat} {p : Part}
    (h : (p.fx f).run.isOpen = false) : Part.runQueueWith grant f n p = p := by
  cases n
  · rfl
  · simp [Part.runQueueWith, h]

/-- An ACTIVE run with nothing queued waits for its steps. -/
theorem Part.runQueueWith_idle {grant : Part → Part} {f : FixtureIx} {n : Nat} {p : Part} (h : (p.fx f).queue = [])
    (ha : (p.fx f).run.state = .active) : Part.runQueueWith grant f n p = p := by
  cases n
  · rfl
  · simp [Part.runQueueWith, h, ha]

theorem Part.runQueue_idle {f : FixtureIx} {p : Part} (h : (p.fx f).queue = []) (ha : (p.fx f).run.state = .active) :
    p.runQueue f = p := Part.runQueueWith_idle h ha

theorem Part.runQueueBusy_idle {f : FixtureIx} {p : Part} (h : (p.fx f).queue = []) (ha : (p.fx f).run.state = .active) :
    p.runQueueBusy f = p := Part.runQueueWith_idle h ha

/-! ## The end of a step -/

/-- The end of a step as its record: the step's releases, then the record, the verdict and the count. -/
theorem Part.finishStep_record {p : Part} {f : FixtureIx} {i : InFlight} (h : (p.fx f).inflight = some i) (e : StepEnd) :
    p.finishStep f e = (p.releaseStep f).modFx f fun x => x.withResult (x.recordFor i.step i.startedAt p.uptime e) := by
  have hr := p.releaseStep_released f
  rw [Part.finishStep_some h]
  unfold Part.modFx
  congr 2
  simp only [Part.resultOf, nextSeq, Part.msSince, hr.uptime, sat16, Fixture.withResult, Fixture.recordFor]

theorem Part.releaseStep_run (p : Part) (f : FixtureIx) : ((p.releaseStep f).fx f).run = (p.fx f).run := by
  rw [(p.releaseStep_released f).fx_eq]

theorem Part.releaseStep_queue (p : Part) (f : FixtureIx) : ((p.releaseStep f).fx f).queue = (p.fx f).queue := by
  rw [(p.releaseStep_released f).fx_eq]

/-- A step ends and the policy leaves the run alone. -/
theorem Part.closeStep_quiet {p : Part} {f : FixtureIx} {i : InFlight} {e : StepEnd} (h : (p.fx f).inflight = some i)
    (hc : (p.fx f).run.policy = .cont ∨ (e.verdict ≠ .fail ∧ e.verdict ≠ .incomplete)) :
    p.closeStep f e = (p.releaseStep f).modFx f fun x => x.withResult (x.recordFor i.step i.startedAt p.uptime e) := by
  unfold Part.closeStep
  rw [h]
  simp only [Part.finishStep_record h]
  unfold Part.applyPolicy
  rcases hc with hc | ⟨h1, h2⟩
  · simp [Fixture.withResult, Part.releaseStep_run, hc]
  · simp [h1, h2]

/-- A step ends with nothing queued in an ACTIVE run that the policy leaves alone. -/
theorem Part.endStep_quiet {rq : Examine} (hrq : ∀ f p, (Part.fx p f).queue = [] → (Part.fx p f).run.state = .active → rq f p = p)
    {p : Part} {f : FixtureIx} {i : InFlight} {e : StepEnd} (h : (p.fx f).inflight = some i)
    (hc : (p.fx f).run.policy = .cont ∨ (e.verdict ≠ .fail ∧ e.verdict ≠ .incomplete)) (ha : (p.fx f).run.state = .active)
    (hq : (p.fx f).queue = []) :
    p.endStep rq f e = (p.releaseStep f).modFx f fun x => x.withResult (x.recordFor i.step i.startedAt p.uptime e) := by
  unfold Part.endStep
  rw [h, Part.closeStep_quiet h hc]
  simp only [Option.isSome_some, if_true]
  exact hrq _ _ (by simp [Fixture.withResult, Part.releaseStep_queue, hq]) (by simp [Fixture.withResult, Part.releaseStep_run, ha])

theorem Part.finish_quiet {p : Part} {f : FixtureIx} {i : InFlight} {e : StepEnd} (h : (p.fx f).inflight = some i)
    (hc : (p.fx f).run.policy = .cont ∨ (e.verdict ≠ .fail ∧ e.verdict ≠ .incomplete)) (ha : (p.fx f).run.state = .active)
    (hq : (p.fx f).queue = []) :
    p.finish f e = (p.releaseStep f).modFx f fun x => x.withResult (x.recordFor i.step i.startedAt p.uptime e) :=
  Part.endStep_quiet (fun _ _ => Part.runQueue_idle) h hc ha hq

theorem Part.finish_none {p : Part} {f : FixtureIx} (h : (p.fx f).inflight = none) (e : StepEnd) : p.finish f e = p := by
  simp [Part.finish, Part.endStep, h]

/-! ## Converter requests -/

theorem Part.tryBurst_busy {p : Part} (h : p.conv.burst.isSome = true) : p.tryBurst = p := by
  have : p.conv.burst.isNone = false := by simpa [Option.isNone_iff_eq_none, Option.isSome_iff_ne_none] using h
  simp [Part.tryBurst, this]

/-- No burst begins while the matrix is away. -/
theorem Part.tryBurst_lent {p : Part} (h : p.lend.matrix ≠ .owned) : p.tryBurst = p := by simp [Part.tryBurst, h]

theorem Converter.choose_none {v : Converter} (h : ∀ f, v.req f = none) : v.choose = none := by
  simp [Converter.choose, allFixtures, h]

/-- No burst begins with no request. -/
theorem Part.tryBurst_none {p : Part} (h1 : p.conv.reference = none) (h2 : ∀ f, p.conv.req f = none) : p.tryBurst = p := by
  unfold Part.tryBurst
  split
  · rw [h1]; simp only [Converter.choose_none h2]
  · rfl

/-- A request withdrawn while no burst is in progress, or another's. -/
theorem Part.withdraw_plain {p : Part} {f : FixtureIx} (h : ∀ b, p.conv.burst = some b → b.requester ≠ .fixture f) :
    p.withdraw f = { p with conv := p.conv.setReq f none } := by
  unfold Part.withdraw
  dsimp only
  split
  · rfl
  · rename_i b hb
    have : b.requester ≠ .fixture f := h b hb
    rw [if_neg (fun k => this k.1)]
    rfl

/-- A free record path with no request grants nothing, and a busy one neither. -/
theorem Part.tryGrant_busy {p : Part} (h : p.pathBusy.isSome = true) : p.tryGrant = p := by simp [Part.tryGrant, h]

end Sys2Proof.Machine
end

