-- ==== Sys2Proof/Tests/Slice0.lean ====
section
/-! SUPPORT. The model's own tests: the checks of WellFormed, the manual's worked cases, one or two events of each kind, and for
each statement with hypotheses a state that meets them (`witness_…`). -/

namespace Sys2Proof.Tests

open Sys2Proof Sys2Proof.Machine

set_option Elab.async false

/-! ## States -/

/-- A running part 5 s after its reset, with a free link and a FREE converter. -/
def quiet : Part :=
  { clock := 5000000, flash := { phase := 0, due := 5125000 }, link := { tx := .free }
    conv := { reference := none, burst := none, refDue := 6000000 } }

/-- A state with nothing waiting. -/
def sat (p : Part) : State := { pending := [], part := p }

/-- A fixture with an ACTIVE run under a closed lid. -/
def runFx : Fixture :=
  { sense := { rawPresence := true, rawLid := true, presence := true, lid := true }
    run := { state := .active, runId := 7 }, port := { state := .active } }

/-- The quiet part with one fixture as given. -/
def withFx (f : FixtureIx) (x : Fixture) : Part := quiet.modFx f fun _ => x

/-- The quiet part with fixture 1's supply as given. -/
def withSupply (u : Supply) : Part := withFx 1 { runFx with supply := u }

/-- A step that has been in flight for one second. -/
def doing (b : StepBody) (g : Progress) : InFlight := { step := { tag := 9, body := b }, startedAt := 4000000, progress := g }

/-- A step to queue. -/
def stepOf (b : StepBody) : Step := { tag := 9, body := b }

/-- The part after a command. -/
def partAfter (c : Instr) (s : State) : Option Part :=
  match exec c s with
  | .next t => some t.part
  | .fault _ => none
  | .refused _ => none

/-- A byte. -/
def b8 (n : Nat) : Byte := BitVec.ofNat 8 n

/-- A list of bytes. -/
def bytes (l : List Nat) : List Byte := l.map b8

/-- Eight codes of which the first four are given. -/
def codes4 (a b c d : Nat) : Codes :=
  #v[BitVec.ofNat 12 a, BitVec.ofNat 12 b, BitVec.ofNat 12 c, BitVec.ofNat 12 d, 0, 0, 0, 0]

/-- A burst of fixture 1 on an input. -/
def burstOf (input : ConvInput) (count : Nat) (stage : Stage) : Burst :=
  { requester := .fixture 1, input := input, count := count, stage := stage, orphan := false, broken := false }

/-- A part whose link is as the quiet part's listens. -/
theorem listening_of {p : Part} (h : p.powered = true) (l : p.link = quiet.link) : (sat p).Listening :=
  ⟨h, by rw [show (sat p).part = p from rfl, l]; rfl, by rw [show (sat p).part = p from rfl, l]; rfl,
    by rw [show (sat p).part = p from rfl, l]; rfl, by rw [show (sat p).part = p from rfl, l]; rfl⟩

/-! ## WellFormed and Decode -/

theorem test_wf_payload_1201 : (Instr.writePattern 0 (List.replicate 1201 0)).wf = false := by decide +kernel
theorem test_wf_payload_1200 : (Instr.writePattern 0 (List.replicate 1200 0)).wf = true := by decide +kernel
theorem test_wf_unknown_that_is_known : (Instr.unknownRequest 0x01 0 []).wf = false := by decide +kernel
theorem test_wf_unknown_above_6F : (Instr.unknownRequest 0x70 0 []).wf = false := by decide +kernel
theorem test_wf_nonrequest_below_70 : (Instr.nonRequestFrame 0x6F 0 []).wf = false := by decide +kernel
theorem test_wf_dropped_above_6F : (Instr.requestDropped 0x70 0 []).wf = false := by decide +kernel
theorem test_wf_length_1200 : (Instr.lengthAbove1200 0xB0 0x04).wf = false := by decide +kernel
theorem test_wf_standard_id_12_bits :
    (Instr.frameReceived 0 { kind := .remote, extended := false, id := 0x800, dlc := 0, data := [], underWay := false }).wf = false := by
  decide +kernel
theorem test_wf_data_shorter_than_dlc :
    (Instr.frameReceived 0 { kind := .data, extended := true, id := 0x800, dlc := 9, data := [1], underWay := false }).wf = false := by
  decide +kernel
theorem test_no_word_spells_a_command : decodeTableWord 8 0x10 = none ∧ sat quiet = (sat quiet).withFetchWord 8 0x10 := by
  decide +kernel

/-! ## Worked cases of the manual -/

/-- Section 10.1: the check over 31h to 39h. -/
theorem test_check_of_31_to_39 : crc16 (bytes [0x31, 0x32, 0x33, 0x34, 0x35, 0x36, 0x37, 0x38, 0x39]) = 0x29B1 := by decide +kernel

/-- Section 8.3, the readings of a sleep-current test. -/
theorem test_sleep_current_readings :
    readingOf [4, 4, 4, 4] 3000 .high = { value := 4883, mean16 := 64, range := .high } ∧
    readingOf [171, 171, 171, 172] 3000 .low = { value := 418, mean16 := 2740, range := .low } ∧
    readingOf [3960, 4095, 4012, 3998] 3000 .low = { value := 10000, mean16 := 64260, range := .low } ∧
    (readingOf [171, 171, 171, 172] 2950 .low).value = 425 := by decide +kernel

/-- Section 8.4, the looped-back speed output. -/
theorem test_looped_back_speed :
    timingValue .periodUs 4 4000 1200 = 1000 ∧ timingValue .highUs 4 4000 1200 = 300 ∧
    timingValue .dutyPermille 4 4000 1200 = 300 ∧ timingValue .freqMhz 4 4000 1200 = 1000000 ∧
    timingValue .freqMhz 4 4001 1200 = 999750 ∧ timingValue .freqMhz 1 16000000 1 = 63 := by decide +kernel

/-- Section 8.5, engine speed and a signed temperature from a frame. -/
theorem test_fields_of_frames :
    fieldValue (fieldRaw (bytes [0x10, 0x27, 0, 0, 0, 0, 0, 0]) 0 16 false) 1 4 0 = 2500 ∧
    fieldRaw (bytes [0x70, 0xFF, 0, 0, 0, 0, 0, 0]) 4 12 true = -9 ∧
    fieldValue (-9) 1 2 (-40) = -45 ∧ fieldValue (-8) 1 2 (-40) = -44 := by decide +kernel

/-- Section 8.6, an ANALOG measurement stage by stage. -/
theorem test_analog_stages :
    mean16Of [2456, 2458, 2455, 2459] = 39312 ∧ correct 39312 2980 = 39576 ∧
    analogValue [2456, 2458, 2455, 2459] 2980 (0, 20000) = 12078 ∧
    judgeAnalog false [2456, 4095, 2455, 2459] 14089 (0, 20000) (some 11500) (some 14500) 200 = (.fail, .high, 20000) ∧
    judgeAnalog false [2456, 4095, 2455, 2459] 14089 (0, 20000) (some 11500) (some 20000) 200 = (.incomplete, .saturated, 14089) ∧
    judgeAnalog true [2456, 4095, 2455, 2459] 14089 (0, 20000) (some 11500) (some 14500) 200 = (.incomplete, .ref, 14089) ∧
    analogValue [2456, 4095, 2455, 2459] 2980 (0, 20000) = 14089 ∧
    analogValue [4094, 4094, 4094, 4094] 2700 (0, 20000) = 19995 := by decide +kernel

/-- Section 8.6, overlapping guard bands. -/
theorem test_overlapping_guard_bands :
    [995, 1010, 1030, 1050, 1060, 1100, 1101].map (fun v => judgeLimits v (some 1000) (some 1100) 80) =
      [(.fail, .low), (.marginal, .low), (.marginal, .low), (.marginal, .low), (.marginal, .high), (.marginal, .high),
       (.fail, .high)] ∧
    judgeLimits 1040 (some 1000) (some 1100) 40 = (.pass, .none) ∧
    judgeLimits 1060 (some 1000) (some 1100) 40 = (.pass, .none) := by decide +kernel

/-- Section 3.1: a quarter of the limit, rounded down to 10 mA and no less than 50 mA. -/
theorem test_soft_start :
    [2000, 1230, 150, 5000].map (fun l => ({ limit := l } : Supply).softStart) = [500, 300, 50, 1250] := by decide +kernel

/-! ## Events of the manual's worked sequences -/

/-- A running part, fixture 6 with outputs as given. -/
def withOuts (o : Outputs) : State := sat (withFx 6 { runFx with outs := o })

/-- What an event leaves of a fixture. -/
def fixtureAfter {α : Type} (f : FixtureIx) (g : Fixture → α) (c : Instr) (s : State) : Option α :=
  (partAfter c s).map fun p => g (p.fx f)

/-- Section 5.3: at t + 128 µs the pending duty of 64 becomes current, and the pin is low for the whole period. -/
theorem test_dimmer_period_start :
    (partAfter (.periodStart 6) (withOuts { pwm := { cfg := { divider := 2, activeLow := true }, duty := 16, enabled := true,
                                                     pendingDuty := some 64, periodStart := 5000000 } })).map
        (fun p => ((p.fx 6).outs.pwm.duty, (p.fx 6).outs.pwm.pendingDuty, p.clock, p.pwmPin 6)) =
      some (64, none, 5000128, false) := by decide +kernel

/-- Section 5.4: at s + 1,300 µs the pending counts are taken up and the second pulse goes low. -/
theorem test_pulse_takes_up_counts :
    fixtureAfter 6 (·.outs.pulse) (.phaseBoundary 6)
        (withOuts { pulse := { cur := { high := 300, low := 700, count := 3 }, pending := some { high := 200, low := 300, count := 5 },
                               phase := .high, done := 1, phaseStart := 5001000 } }) =
      some { cur := { high := 200, low := 300, count := 5 }, pending := none, phase := .low, done := 2, phaseStart := 5001300 } := by
  decide +kernel

/-- Section 5.4: the fifth pulse's high phase ends the burst. -/
theorem test_pulse_burst_ends :
    fixtureAfter 6 (fun x => (x.outs.pulse.phase, x.outs.pulse.done)) (.phaseBoundary 6)
        (withOuts { pulse := { cur := { high := 200, low := 300, count := 5 }, phase := .high, done := 4, phaseStart := 5002600 } }) =
      some (.stopped, 5) := by decide +kernel

/-- Section 3.9: the limit timer trips the supply, halts the run and puts the entry on top of console A. -/
theorem test_overcurrent_trip :
    (partAfter (.limitTimerExpiry 3) (sat (withFx 3 { runFx with
        supply := { state := .limit, limit := 1000, limitTime := 20, since := 4990000, atLimit := true, below500 := false } }))).map
      (fun p => ((p.fx 3).supply.state, (p.fx 3).run.haltReason, p.clock, p.consoleA.entries.map (·.text))) =
    some (.discharge, .supplyTrip, 5010000,
      [chars ['S', 'U', 'P', 'P', 'L', 'Y', ' ', 'T', 'R', 'I', 'P', ':', ' ', 'O', 'V', 'E', 'R', 'C', 'U', 'R', 'R', 'E', 'N',
        'T']]) := by decide +kernel

/-- Section 3.9: CLEAR_FAULT is refused while the residual voltage stands, and then accepted. -/
theorem test_clear_fault :
    (fixtureAfter 3 (·.supply.state) (.clearFault 7 [3]) (sat (withFx 3 { supply :=
        { state := .tripped, tripReason := .overcurrent, residual := true, below500 := false } })) = some .tripped) ∧
    (fixtureAfter 3 (·.supply) (.clearFault 7 [3]) (sat (withFx 3 { supply :=
        { state := .tripped, tripReason := .overcurrent, residual := true, below500 := true } })) =
      some { state := .off, since := 5000000 }) := by decide +kernel

/-- Section 3.8: at-limit takes an ON supply to LIMIT, and its clearing brings it back. -/
theorem test_limit_and_back :
    fixtureAfter 0 (·.supply.state) (.atLimitHolds 0) (sat (withFx 0 { runFx with supply := { state := .on } })) = some .limit ∧
    fixtureAfter 0 (·.supply.state) (.atLimitClears 0) (sat (withFx 0 { runFx with supply := { state := .limit, atLimit := true } })) =
      some .on := by decide +kernel

/-- Section 1.4: a FAIL under SKIP with no MARK queued discards the queue and sets skipping. -/
theorem test_skip_without_mark :
    fixtureAfter 2 (fun x => (x.queue, x.run.skipped, x.run.skipping, x.run.verdict, x.log.length)) (.stepTimeout 2)
        (sat (withFx 2 { runFx with
          run := { runFx.run with policy := .skip }
          inflight := some (doing (.waitFor .supplyOn 1000) .plain)
          queue := [stepOf (.wait 11), stepOf (.wait 12), stepOf (.wait 13)] })) =
      some ([], 3, true, .fail, 1) := by decide +kernel

/-- Section 1.4: the second request's first three steps are discarded, step 30 starts and 31 waits. -/
theorem test_skipping_ends_at_mark :
    fixtureAfter 2 (fun x => (x.queue.length, x.inflight.isSome, x.run.skipped, x.run.skipping))
        (.queueSteps 7 (bytes [2, 5] ++ padTo 52 0 (bytes [20, 0, 1]) ++ padTo 52 0 (bytes [21, 0, 4, 0, 5]) ++
          padTo 52 0 (bytes [22, 0, 8]) ++ padTo 52 0 (bytes [30, 0, 4, 0, 5]) ++ padTo 52 0 (bytes [31, 0, 4, 0, 5])))
        (sat (withFx 2 { runFx with run := { runFx.run with policy := .skip, verdict := .fail, skipped := 3, skipping := true } })) =
      some (1, true, 6, false) := by decide +kernel

/-- Section 9.9: a short PASS answers the CONFIRM it bound, although a SAFETY entry stands above it. -/
theorem test_short_pass_answers_hidden_entry :
    (partAfter (.buttonUp .a .pass) (sat { withFx 1 { runFx with inflight := some (doing (.prompt .confirm 60000 []) (.prompt 4)) } with
        consoleA := { entries := [{ id := 6, owner := 3, cls := .safety, text := [] },
                                  { id := 4, owner := 1, cls := .normal .confirm 9 7, text := [] },
                                  { id := 5, owner := 2, cls := .normal .ack 9 7, text := [] }]
                      nextId := 7
                      pass := { down := true, press := some { phase := .held, bound := some 4, longTime := 2, downAt := 4300000 } } } })).map
      (fun p => (p.consoleA.entries.map (·.id), ((p.fx 1).log.map fun r => (r.verdict, r.elapsed)), p.consoleA.pass)) =
    some ([6, 5], [(.pass, 1000)], {}) := by decide +kernel

/-- Section 9.10: a settled STOP halts the open run and posts CONSOLE_STOP. -/
theorem test_stop_halts :
    (partAfter (.consoleStop .b) (sat { withFx 4 runFx with consoleB := { stopRaw := true, stopDue := some 5000000 } })).map
      (fun p => ((p.fx 4).run.haltReason, (p.fx 4).run.state, (p.fx 4).run.verdict, p.link.notices.getLast?)) =
    some (.operatorStop, .ended, .incomplete, some (.consoleStop .b true)) := by decide +kernel

/-- A check in progress whose four codes are as given. -/
def checking (fault : Bool) : State :=
  sat { quiet with conv := { quiet.conv with
    reference := some 4, cref := 2980, refFault := fault, lastInput := some .reference
    burst := some { requester := .reference, input := .reference, count := 4, stage := .converting 5000040, orphan := false, broken := false } } }

/-- Section 7.4: a mean in the band is the new Cref; one outside it raises ref_fault and leaves Cref. -/
theorem test_reference_band :
    (partAfter (.burstEnd (codes4 2700 2700 2700 2700)) (checking true)).map (fun p => (p.conv.cref, p.conv.refFault)) =
      some (2700, false) ∧
    (partAfter (.burstEnd (codes4 2699 2699 2700 2699)) (checking false)).map (fun p => (p.conv.cref, p.conv.refFault)) =
      some (2980, true) := by decide +kernel

/-- Section 4.5: at 50,100 bank B takes over, its first record is applied, and BANK_FREE(A) is posted. -/
theorem test_bank_handover :
    (partAfter (.dwellExpiry 5) (sat { (withFx 2 runFx).modCh 5 fun _ =>
        { defn := some { fixture := 2, level := 1, mode := .pingpong, repeats := 0, aStart := 1000, aCount := 4, bStart := 1004,
                         bCount := 4, firstBank := 1, unitMs := true, half := true, endNotice := false }
          state := .playing, due := false, dwellEnd := 5100000, bank := some .a, position := 1004, remaining := 0, readyB := true } with
        pattern := [(16064, 1), (16065, 25), (16067, 0x10), (16068, 0x0E)] })).map
      (fun p => ((p.fx 2).outs.aout0, (p.ch 5).bank, (p.ch 5).position, (p.ch 5).dwellEnd, p.link.tx)) =
    some (3600, some .b, 1005, 5125000, .sending (.notice (.channelEvent 5 2 .bankFree (some .a) 1 .none))) := by
  decide +kernel

/-- Section 8.3 and R68: a HIGH reading of 4,883 µA takes the supply to the LOW range. -/
theorem test_reading_takes_low_range :
    fixtureAfter 1 (fun x => (x.supply.range, x.log)) (.burstEnd (codes4 4 4 4 4))
        (sat { withFx 1 { runFx with
            supply := { state := .on }
            inflight := some (doing (.waitFor (.quiescent 500 3000) 0) (.quiescent none none none)) } with
          conv := { quiet.conv.setReq 1 (some { level := 3, kind := .quiescent, remaining := 4 }) with
            burst := some (burstOf (.point 1 9 .high) 4 (.converting 5000040)) } }) =
      some (.low, []) := by decide +kernel

/-- Section 6.5: the engine-speed frame ends the step that waits on entry 1. -/
theorem test_frame_field_step :
    (fixtureAfter 4 (fun x => (x.log.map fun r => (r.verdict, r.value, r.unit), (x.watchOf 1).count))
        (.frameReceived 4 { kind := .data, extended := false, id := 0x3A4, dlc := 4, data := bytes [0x10, 0x27, 0, 0], underWay := false })
        (sat (withFx 4 { runFx with
          inflight := some (doing (.measure 62 0 (some 2400) (some 2600) 50 0)
            (.frameField { fixture := 4, unit := 3, body := .frameField 1 0 16 false 1 4 0 }))
          watch := (Vector.replicate 8 {}).set 1 { enabled := true, id := 0x3A4, mask := 0x7FF, count := 1 } }))) =
      some ([(.pass, some 2500, some 3)], 2) := by decide +kernel

/-! ## Witnesses: states and operands that meet the hypotheses of the statements, clause by clause -/

/-- Frames of a request. -/
def rq (ty : Nat) (p : List Nat) : Frame := { ty := b8 ty, tag := 7, payload := bytes p }

/-- The quiet part with another link. -/
def withLink (l : Link) : State := sat { quiet with link := l }

/-- A notice. -/
def aNotice : Notice := .logFull 1

theorem witness_StepTakesTheFrontCommand :
    ({ quiet with powered := false } : Part).powered = false ∧
    (quiet.powered = true ∧ ({ quiet with clock := 5125000 } : Part).nextDue = some .flashClockPhase) ∧
    quiet.nextDue = none := by decide +kernel

theorem witness_TimeCountsAndNoticesQueue :
    (quiet.link.tx = .free ∧ quiet.link.reply = none ∧ quiet.link.notices = []) ∧
    (let l : Link := { notices := List.replicate 31 aNotice }; l.tx ≠ .free ∧ l.notices.length < 32) ∧
    32 ≤ (List.replicate 32 aNotice).length := by decide +kernel

theorem witness_HeldInResetDoesNothing :
    (sat { quiet with powered := false }).part.powered = false ∧ reachesHeld .burstGrant = false := by decide +kernel

theorem witness_CommandResetKeepsDefinitions :
    (withLink { tx := .sending (.reply { ty := 0x84, tag := 7, payload := [0] }), resetPending := true }).part.powered = true := by
  decide +kernel

theorem witness_BytesOfAFrameAreTheFrame :
    (sat quiet).part.powered = true ∧ (sat quiet).part.link.rx = .hunt ∧ (List.replicate 1200 (0 : Byte)).length ≤ 1200 := by
  decide +kernel

theorem witness_ReceiverTakesAndDropsFrames :
    (sat quiet).part.powered = true ∧ (sat quiet).part.link.rx = .hunt ∧
    1200 < (0xB1 : Byte).toNat + 256 * (0x04 : Byte).toNat ∧
    (let s := withLink { rx := .header, rxBuf := [0xB1] }; s.part.link.rx ≠ .hunt ∧ s.part.link.rxBuf = [0xB1]) ∧
    0x70 ≤ (0x70 : Byte).toNat ∧ (0x6F : Byte).toNat < 0x70 ∧
    (withLink { frameBuf := some (rq 1 []) }).part.link.frameBuf ≠ none ∧
    (withLink { resetPending := true }).part.link.resetPending = true ∧
    (let s := withLink { reply := some (rq 0x81 []) }
     s.part.link.resetPending = false ∧ s.part.link.frameBuf = none ∧ s.part.link.reply ≠ none) ∧
    requestFrame (.identify 7 []) = some (rq 1 []) ∧ (rq 1 []).ty.toNat < 0x70 := by decide +kernel

theorem witness_EveryRequestIsAnswered :
    (sat quiet).Listening ∧ requestFrame (.identify 7 [0]) = some (rq 1 [0]) ∧ (rq 1 [0]).ty.toNat < 0x70 ∧
    (rq 1 [0]).payload.length ≠ 0 ∧
    (requestFrame (.unknownRequest 0x6F 7 []) = some (rq 0x6F []) ∧ (rq 0x6F []).ty.toNat ∉ knownRequestTypes) ∧
    (requestFrame (.queueSteps 7 [0]) = some (rq 0x15 [0]) ∧ (rq 0x15 [0]).payload.length < 2) ∧
    (requestFrame (.writePattern 7 [0, 0]) = some (rq 0x34 [0, 0]) ∧ (rq 0x34 [0, 0]).payload.length < 3) :=
  ⟨listening_of rfl rfl, by decide +kernel⟩

theorem witness_RefusedRequestsChangeNothing :
    (sat quiet).Listening ∧ requestFrame (.identify 7 [0]) = some (rq 1 [0]) ∧ (rq 1 [0]).ty.toNat < 0x70 ∧
    ∃ t, exec (.identify 7 [0]) (sat quiet) = .next t ∧
      t.part.link.tx = .sending (.reply { ty := (rq 1 [0]).ty + 0x80, tag := (rq 1 [0]).tag, payload := 0x02 :: [] }) ∧
      (0x02 : Byte) ≠ 0 :=
  ⟨listening_of rfl rfl, by decide +kernel, by decide +kernel, _, rfl, by decide +kernel, by decide +kernel⟩

theorem witness_TransmitterTakesReplyThenNotice :
    (let s := withLink { reply := some (rq 0x81 []) }
     s.part.link.resetDue = false ∧ s.part.link.tx ≠ .free ∧ s.part.link.reply = some (rq 0x81 []) ∧ s.part.link.frameBuf = none) ∧
    (let s := withLink { tx := .free, reply := some (rq 0x81 []), frameBuf := some (rq 1 []) }
     s.part.link.resetDue = false ∧ s.part.link.tx = .free ∧ s.part.link.frameBuf = some (rq 1 []) ∧
       s.part.link.resetPending = false) ∧
    (let s := withLink { notices := [aNotice] }
     s.part.link.resetDue = false ∧ s.part.link.tx ≠ .free ∧ s.part.link.reply = none ∧ s.part.link.notices = [aNotice]) ∧
    (let s := withLink {}; s.part.link.resetDue = false ∧ s.part.link.tx ≠ .free ∧ s.part.link.reply = none ∧ s.part.link.notices = []) := by
  decide +kernel

theorem witness_SilenceHaltsEveryOpenRun :
    let s := sat { withFx 1 runFx with link := { silenceFrom := some 1000000, silenceTimeout := 1 } }
    s.part.powered = true ∧ s.part.link.silenceFrom = some 1000000 ∧ s.part.link.silenceTimeout ≠ 0 ∧
      (s.part.fx 1).run.isOpen = true ∧ (s.part.fx 2).run.isOpen = false := by decide +kernel

theorem witness_SetLinkSetsTheTimeout :
    (sat quiet).Listening ∧ ([] : List Byte).length ≠ 1 ∧ 60 < (61 : Byte).toNat ∧ (60 : Byte).toNat ≤ 60 ∧ (0 : Byte).toNat ≤ 60 :=
  ⟨listening_of rfl rfl, by decide⟩

theorem witness_SettingsTakeTheirValues :
    (sat quiet).Listening ∧ (1 ≤ (1 : Byte).toNat ∧ (1 : Byte).toNat ≤ 4) ∧ (1 ≤ (4 : Byte).toNat ∧ (4 : Byte).toNat ≤ 4) ∧
    1 < (2 : Byte).toNat ∧ (0 : Byte).toNat < 1 ∧ 4 < (5 : Byte).toNat :=
  ⟨listening_of rfl rfl, by decide⟩

theorem witness_IdentifyReportsThePart : (sat quiet).Listening ∧ ([0] : List Byte) ≠ [] :=
  ⟨listening_of rfl rfl, by decide⟩

theorem witness_PartStatusReportsAndClearsLost :
    let s := sat { quiet with lend := { matrix := .lent .request 100 5000000 } }
    s.Listening ∧ s.part.conv.cref < 65536 ∧ s.part.lend.holdLimit < 65536 ∧ s.part.link.silenceTimeout < 256 :=
  ⟨listening_of rfl rfl, by decide +kernel⟩

/-- An OPEN_RUN payload for a fixture. -/
def openPayload (f policy priority rate label : Nat) : List Byte := padTo 33 0 (bytes [f, policy, priority, rate, 1, 0, 0, 0, label])

/-- A fixture with a unit present under a closed lid and no run. -/
def readyFx : Fixture := { sense := runFx.sense }

theorem witness_OpenRunFollowsItsTable :
    (sat (withFx 4 readyFx)).Listening ∧ (sat (withFx 4 readyFx)).part.link.notices.length < 32 ∧ ([] : List Byte).length ≠ 33 ∧
    ((openPayload 8 0 0 0 0).length = 33 ∧ ∀ f : FixtureIx, byteAt (openPayload 8 0 0 0 0) 0 = f.val → quiet.isFitted f = false) ∧
    ((openPayload 4 2 3 2 24).length = 33 ∧ byteAt (openPayload 4 2 3 2 24) 0 = (4 : FixtureIx).val ∧ quiet.isFitted 4 = true) ∧
    (2 < byteAt (openPayload 4 3 0 0 0) 1 ∧ 3 < byteAt (openPayload 4 0 4 0 0) 2 ∧ 2 < byteAt (openPayload 4 0 0 3 0) 3 ∧
      24 < byteAt (openPayload 4 0 0 0 25) 8) ∧
    ((withFx 4 runFx).fx 4).run.state ≠ .none ∧ (({ withFx 4 readyFx with consoleB := { stopLevel := true } } : Part).con .b).stopLevel = true ∧
    ((withFx 4 { readyFx with supply := { state := .tripped } }).fx 4).supply.state = .tripped ∧
    ((withFx 4 { readyFx with supply := { state := .discharge } }).fx 4).supply.state = .discharge ∧
    (quiet.fx 4).sense.presence = false ∧ ((withFx 4 { sense := { presence := true } }).fx 4).sense.lid = false :=
  ⟨listening_of rfl rfl, by decide +kernel⟩

theorem witness_EndAndAbortCloseTheRun :
    (∀ x : Fixture, (sat (withFx 1 x)).Listening) ∧
    ({ quiet with fitted := .two } : Part).isFitted 2 = false ∧ quiet.isFitted 1 = true ∧
    (quiet.fx 1).run.state = .none ∧
    (let x : Fixture := { runFx with inflight := some (doing (.wait 5000) .plain) }
     ((withFx 1 x).fx 1).run.state = .active ∧ ((withFx 1 x).fx 1).inflight ≠ none ∧ ((withFx 1 x).fx 1).run.isOpen = true) ∧
    (((withFx 1 runFx).fx 1).run.state = .active ∧ ((withFx 1 runFx).fx 1).inflight = none ∧ ((withFx 1 runFx).fx 1).queue = []) ∧
    ((withFx 1 { run := { state := .ended } }).fx 1).run.state = .ended ∧
    ((withFx 1 { run := { state := .halting } }).fx 1).run.state = .halting ∧
    (let p : Part := { withFx 1 runFx with link := { tx := .free, notices := List.replicate 30 aNotice } }
     (sat p).Listening ∧ p.conv.burst = none ∧ p.link.notices.length + 2 ≤ 32) :=
  ⟨fun _ => listening_of rfl rfl, by decide +kernel, by decide +kernel, by decide +kernel, by decide +kernel, by decide +kernel,
    by decide +kernel, by decide +kernel, ⟨rfl, rfl, rfl, rfl, rfl⟩, by decide +kernel⟩

theorem witness_ClearRunFreesTheFixture :
    (let s := sat (withFx 1 { readyFx with run := { state := .ended } })
     s.Listening ∧ s.part.isFitted 1 = true ∧ (s.part.fx 1).run.state = .ended) ∧
    (sat { quiet with fitted := .two }).part.isFitted 2 = false ∧ (quiet.fx 1).run.state ≠ .ended ∧
    (let s := sat (withFx 1 { readyFx with supply := { state := .tripped } })
     let p := openPayload 1 2 3 2 24
     s.Listening ∧ s.part.isFitted 1 = true ∧ (s.part.fx 1).run.state = .none ∧ (s.part.fx 1).supply.state = .tripped ∧
       (s.part.con (consoleFor 1)).stopLevel = false ∧ p.length = 33 ∧ byteAt p 0 = (1 : FixtureIx).val ∧ byteAt p 1 ≤ 2 ∧
       byteAt p 2 ≤ 3 ∧ byteAt p 3 ≤ 2 ∧ byteAt p 8 ≤ 24) :=
  ⟨⟨listening_of rfl rfl, by decide +kernel⟩, by decide +kernel, by decide +kernel, listening_of rfl rfl, by decide +kernel⟩

theorem witness_FixtureStatusReports :
    (sat { quiet with fitted := .two }).Listening ∧ (sat { quiet with fitted := .two }).part.isFitted 2 = false ∧
    (let x := (withFx 1 { runFx with inflight := some (doing (.wait 5000) .plain) }).fx 1
     quiet.isFitted 1 = true ∧ x.run.label.length ≤ 24 ∧ x.queue.length ≤ 32 ∧ x.log.length ≤ 64 ∧ x.run.seq ≤ 65535 ∧
       x.run.stepsDone ≤ 65535 ∧ x.run.skipped ≤ 65535 ∧ x.inflight = some (doing (.wait 5000) .plain)) :=
  ⟨listening_of rfl rfl, by decide +kernel⟩

/-- A request of one MARK step for fixture 1. -/
def oneMark : List Byte := bytes [1, 1] ++ padTo 52 0 (bytes [9, 0, 8])

/-- What a payload's slots say. -/
def slotsOf (p : List Byte) : Except Nat (List Step) := parseAll parseStep 0 (pieces 52 (byteAt p 1) (p.drop 2))

theorem witness_QueueStepsChecksAndAppends :
    (∀ x : Fixture, (sat (withFx 1 x)).Listening) ∧
    (2 ≤ (bytes [8, 1]).length ∧ ∀ f : FixtureIx, byteAt (bytes [8, 1]) 0 = f.val → quiet.isFitted f = false) ∧
    (2 ≤ oneMark.length ∧ byteAt oneMark 0 = (1 : FixtureIx).val ∧ quiet.isFitted 1 = true) ∧
    (quiet.fx 1).run.state ≠ .active ∧ ((withFx 1 runFx).fx 1).run.state = .active ∧
    (byteAt (bytes [1, 0]) 1 < 1 ∧ 16 < byteAt (bytes [1, 17]) 1 ∧ (bytes [1, 1]).length ≠ 2 + 52 * byteAt (bytes [1, 1]) 1) ∧
    (1 ≤ byteAt oneMark 1 ∧ byteAt oneMark 1 ≤ 16 ∧ oneMark.length = 2 + 52 * byteAt oneMark 1) ∧
    slotsOf (bytes [1, 1] ++ padTo 52 0 (bytes [9, 0, 9])) = .error 0 ∧ slotsOf oneMark = .ok [stepOf .mark] ∧
    (let x : Fixture := { runFx with queue := List.replicate 32 (stepOf .mark) }
     32 - x.queue.length < [stepOf .mark].length) ∧
    (let x : Fixture := { runFx with queue := List.replicate 31 (stepOf .mark), inflight := some (doing (.wait 5000) .plain) }
     [stepOf .mark].length ≤ 32 - x.queue.length ∧ x.inflight ≠ none) ∧
    ([stepOf .mark].length ≤ 32 - runFx.queue.length ∧ runFx.inflight = none) ∧
    ((parseStep (padTo 52 0 (bytes [9, 0, 4, 0] ++ le32 600000))).isSome = true ∧
      parseStep (padTo 52 0 (bytes [9, 0, 4, 0] ++ le32 600001)) = none) :=
  ⟨fun _ => listening_of rfl rfl, by decide +kernel, by decide +kernel, by decide +kernel, by decide +kernel, by decide +kernel,
    by decide +kernel, rfl, rfl, by decide +kernel, by decide +kernel, by decide +kernel, by decide +kernel⟩

/-- A result record. -/
def aResult : Result :=
  { seq := 1, tag := 9, kind := .wait, verdict := .pass, reason := .none, value := some (-2147483648), unit := some 255
    mean16 := some 65535, range := some .low, elapsed := 3, endTime := 5 }

theorem witness_ReadResultsTakesTheOldest :
    (∀ x : Fixture, (sat (withFx 1 x)).Listening) ∧ quiet.isFitted 1 = true ∧ ({ quiet with fitted := .two } : Part).isFitted 2 = false ∧
    (0 : Byte).toNat < 1 ∧ 16 < (17 : Byte).toNat ∧ 1 ≤ (16 : Byte).toNat ∧ (16 : Byte).toNat ≤ 16 ∧ 1 ≤ (1 : Byte).toNat ∧
    (quiet.fx 1).run.state = .none ∧
    (let x : Fixture := { run := { state := .ended }, log := [aResult] }; x.run.state ≠ .none ∧ x.run.isOpen = false) ∧
    (let x : Fixture := { runFx with inflight := some (doing (.wait 5000) .plain) }; x.run.state ≠ .none ∧ x.inflight ≠ none) ∧
    (runFx.run.state = .active ∧ runFx.queue = []) ∧
    (let x : Fixture := { runFx with queue := [stepOf (.wait 1)], log := List.replicate 64 aResult, stalled := true }
     x.run.state ≠ .none ∧ x.inflight = none ∧ x.queue ≠ [] ∧ x.stalled = true) ∧
    (aResult.seq ≤ 65535 ∧ (∀ m, aResult.mean16 = some m → m ≤ 65535) ∧ (∀ u, aResult.unit = some u → u ≤ 255) ∧
      ∀ v, aResult.value = some v → -2147483648 ≤ v ∧ v ≤ 2147483647) :=
  ⟨fun _ => listening_of rfl rfl, by decide +kernel, by decide +kernel, by decide, by decide, by decide, by decide, by decide, by decide +kernel, by decide,
    by decide, by decide, by decide +kernel, by decide, by rintro m ⟨⟩; decide, by rintro u ⟨⟩; decide, by rintro v ⟨⟩; decide⟩

/-- A running part whose fixture 1 has steps queued. -/
def queued (l : List StepBody) : Fixture := { runFx with queue := l.map stepOf }

theorem witness_HeadOfTheQueueIsExamined :
    (quiet.fx 1).run.isOpen = false ∧ (doing (.wait 1) .plain |> some) ≠ none ∧
    (runFx.run.state = .active ∧ runFx.inflight = none ∧ runFx.queue = []) ∧
    (let x : Fixture := { runFx with run := { runFx.run with state := .closing } }
     x.run.state = .closing ∧ x.inflight = none ∧ x.queue = []) ∧
    ((queued [.mark]).run.isOpen = true ∧ (queued [.mark]).inflight = none ∧ (queued [.mark]).queue = stepOf .mark :: [] ∧
      (stepOf .mark).body = .mark) ∧
    (let x : Fixture := { queued [.wait 1] with log := List.replicate 64 aResult, stalled := true }
     x.run.isOpen = true ∧ x.inflight = none ∧ x.queue = stepOf (.wait 1) :: [] ∧ (stepOf (.wait 1)).body ≠ .mark ∧
       64 ≤ x.log.length ∧ x.stalled = true) ∧
    (let x : Fixture := { queued [.wait 1] with log := List.replicate 64 aResult }
     64 ≤ x.log.length ∧ x.stalled = false) := by decide +kernel

/-- A fixture whose queue has a head that can start: the hypotheses that both statements on starts share. -/
def canStart (x : Fixture) (b : StepBody) : Bool :=
  x.run.state = .active && x.run.policy = .cont && x.inflight.isNone && x.queue = [stepOf b] && x.log.length < 64

/-- A quiet part whose fixture 1 is as given, with probe 5 as given and a busy path. -/
def starting (x : Fixture) (d : Option Probe) (ch : Channel) : Part :=
  { (withFx 1 x).modCh 3 fun _ => ch with probes := (Vector.replicate 128 none).set 5 d, pathBusy := some 5000003 }

/-- A channel of fixture 1. -/
def aChannel (mode : Mode) (state : ChannelState) (bank : Option Bank) : Channel :=
  { defn := some { fixture := 1, level := 1, mode := mode, repeats := 2, aStart := 10, aCount := 4, bStart := 20, bCount := 4
                   firstBank := 1, unitMs := false, half := true, endNotice := true }
    state := state, bank := bank, position := 12, remaining := 2 }

/-- Probes of fixture 1. -/
def analogProbe : Probe := { fixture := 1, unit := 2, body := .analog 3 (.fixed 2) 4 0 1000 }
def timingProbe : Probe := { fixture := 1, unit := 2, body := .timing 4 .periodUs 4 }
def fieldProbe : Probe := { fixture := 1, unit := 2, body := .frameField 1 0 16 false 1 4 0 }

/-- A watch table with entry 1 enabled for the identifier 3A4h. -/
def oneWatch : Vector Watch 8 := (Vector.replicate 8 {}).set 1 { enabled := true, id := 0x3A4, mask := 0x7FF }

theorem witness_StepsStartAndWait :
    (canStart (queued [.set (bytes [1])]) (.set (bytes [1])) = true ∧ (starting runFx none {}).pathBusy ≠ none) ∧
    (canStart (queued [.wait 1]) (.wait 1) = true ∧ 1 ≠ 0) ∧
    (canStart (queued [.waitFor .supplyOn 0]) (.waitFor .supplyOn 0) = true ∧ runFx.supply.state ≠ .on) ∧
    (let x : Fixture := { queued [.waitFor (.line 4 true) 0] with outs := { inEnable := 0x10 } }
     canStart x (.waitFor (.line 4 true) 0) = true ∧ x.outs.inEnable.getLsbD (4 : LineIx).val = true ∧ x.outs.reads 4 ≠ true) ∧
    (let p := starting (queued [.waitFor (.channelEnd 3) 0]) none (aChannel .once .playing (some .a))
     canStart (p.fx 1) (.waitFor (.channelEnd 3) 0) = true ∧ (p.ch 3).boundTo 1 = true ∧ (p.ch 3).state = .playing) ∧
    (let x : Fixture := { queued [.waitFor (.frame 1) 0] with watch := oneWatch }
     canStart x (.waitFor (.frame 1) 0) = true ∧ (x.watchOf 1).enabled = true) ∧
    canStart (queued [.prompt .ack 0 []]) (.prompt .ack 0 []) = true ∧
    (let b : StepBody := .measure 5 0 none none 0 0
     let p := starting { queued [b] with outs := { inEnable := 0x10 } } (some timingProbe) {}
     canStart (p.fx 1) b = true ∧ p.probe 5 = some timingProbe ∧ timingProbe.fixture = 1 ∧ timingProbe.body = .timing 4 .periodUs 4 ∧
       (p.fx 1).outs.inEnable.getLsbD (4 : LineIx).val = true) ∧
    (let b : StepBody := .measure 5 0 none none 0 0
     let p := starting { queued [b] with watch := oneWatch } (some fieldProbe) {}
     canStart (p.fx 1) b = true ∧ p.probe 5 = some fieldProbe ∧ fieldProbe.fixture = 1 ∧
       fieldProbe.body = .frameField 1 0 16 false 1 4 0 ∧ ((p.fx 1).watchOf 1).enabled = true) ∧
    (let b : StepBody := .measure 5 0 none none 0 0
     let p := { starting (queued [b]) (some analogProbe) {} with conv := {} }
     canStart (p.fx 1) b = true ∧ p.probe 5 = some analogProbe ∧ analogProbe.fixture = 1 ∧
       analogProbe.body = .analog 3 (.fixed 2) 4 0 1000 ∧ p.conv.burst ≠ none) ∧
    (let b : StepBody := .waitFor (.quiescent 500 3000) 0
     let p := { withFx 1 { queued [b] with supply := { state := .on } } with conv := {} }
     canStart (p.fx 1) b = true ∧ (p.fx 1).supply.state = .on ∧ p.conv.burst ≠ none) := by decide +kernel

theorem witness_StepsEndAtTheirStart :
    canStart (queued [.wait 0]) (.wait 0) = true ∧
    (let b : StepBody := .waitFor (.channelEnd 3) 0
     let p := fun c => starting (queued [b]) none c
     (canStart ((p {}).fx 1) b = true ∧ ((p {}).ch 3).boundTo 1 = false) ∧
     (((p (aChannel .once .faulted none)).ch 3).boundTo 1 = true ∧ ((p (aChannel .once .faulted none)).ch 3).state = .faulted) ∧
     (((p (aChannel .once .done none)).ch 3).boundTo 1 = true ∧ ((p (aChannel .once .done none)).ch 3).state = .done)) ∧
    (let b : StepBody := .waitFor .supplyOn 0
     canStart { queued [b] with supply := { state := .on } } b = true) ∧
    (let b : StepBody := .waitFor (.line 4 false) 0
     (canStart (queued [b]) b = true ∧ (queued [b]).outs.inEnable.getLsbD (4 : LineIx).val = false) ∧
     (let x : Fixture := { queued [b] with outs := { inEnable := 0x10 } }
      canStart x b = true ∧ x.outs.inEnable.getLsbD (4 : LineIx).val = true ∧ x.outs.reads 4 = false)) ∧
    (let b : StepBody := .waitFor (.frame 1) 0
     canStart (queued [b]) b = true ∧ ((queued [b]).watchOf 1).enabled = false) ∧
    (let b : StepBody := .waitFor (.quiescent 500 3000) 0
     canStart (queued [b]) b = true ∧ (queued [b]).supply.state ≠ .on) ∧
    (let b : StepBody := .measure 5 0 none none 0 0
     (canStart (queued [b]) b = true ∧ (starting (queued [b]) none {}).probe 5 = none) ∧
     ((starting (queued [b]) (some timingProbe) {}).probe 5 = some timingProbe ∧ timingProbe.fixture = 1 ∧
       (queued [b]).outs.inEnable.getLsbD (4 : LineIx).val = false) ∧
     ((starting (queued [b]) (some fieldProbe) {}).probe 5 = some fieldProbe ∧ fieldProbe.fixture = 1 ∧
       ((queued [b]).watchOf 1).enabled = false)) ∧
    (let b : StepBody := .start 3
     let p := fun c => starting (queued [b]) none c
     (canStart ((p {}).fx 1) b = true ∧ ((p {}).ch 3).boundTo 1 = false ∧ (p {}).pathBusy ≠ none) ∧
     (((p (aChannel .once .faulted none)).ch 3).boundTo 1 = true ∧ ((p (aChannel .once .playing (some .a))).ch 3).state = .playing) ∧
     (∃ d, ((p (aChannel .circular .idle none)).ch 3).defn = some d ∧ d.fixture = 1 ∧ d.mode ≠ .pingpong ∧
       ((p (aChannel .circular .idle none)).ch 3).state = .idle)) ∧
    (let b : StepBody := .stop 3
     let p := fun c => starting (queued [b]) none c
     (canStart ((p {}).fx 1) b = true ∧ ((p {}).ch 3).boundTo 1 = false) ∧
     (((p (aChannel .pingpong .starved (some .a))).ch 3).boundTo 1 = true ∧
       ((p (aChannel .pingpong .starved (some .a))).ch 3).state = .starved) ∧
     (((p (aChannel .once .done none)).ch 3).boundTo 1 = true ∧ ((p (aChannel .once .done none)).ch 3).state ≠ .playing ∧
       ((p (aChannel .once .done none)).ch 3).state ≠ .starved)) ∧
    (let b : StepBody := .start 3
     let p := fun ready => starting (queued [b]) none { aChannel .pingpong .idle none with readyA := ready, position := 12 }
     canStart ((p true).fx 1) b = true ∧ (p true).pathBusy ≠ none ∧
       (((p true).ch 3).defn.any fun d => d.fixture = 1 ∧ d.mode = .pingpong ∧ d.firstBank ≠ 2) = true ∧
       ((p true).ch 3).state = .idle ∧ ((p true).ch 3).readyA = true ∧
       canStart ((p false).fx 1) b = true ∧ ((p false).ch 3).state = .idle ∧ ((p false).ch 3).readyA = false) :=
  ⟨by decide +kernel, by decide +kernel, by decide +kernel, by decide +kernel, by decide +kernel, by decide +kernel, by decide +kernel,
    ⟨by decide +kernel, by decide +kernel, _, rfl, by decide, by decide, rfl⟩, by decide +kernel, by decide +kernel⟩

/-- A fixture with one step in flight, CONTINUE and an empty queue. -/
def inflightFx (b : StepBody) (g : Progress) : Fixture := { runFx with inflight := some (doing b g) }

/-- The hypotheses on a fixture that the statements on the ends of steps share. -/
def mayEnd (x : Fixture) : Bool := x.run.state = .active && x.run.policy = .cont && x.queue = [] && x.inflight.isSome

theorem witness_StepTimersEndSteps :
    (quiet.fx 1).waitUntil = none ∧ (quiet.fx 1).timeoutAt = none ∧ (quiet.fx 1).readingAt = none ∧
    mayEnd (inflightFx (.wait 1000) .plain) = true ∧
    (mayEnd (inflightFx (.waitFor .supplyOn 1000) .plain) = true ∧ 1000 ≠ 0) ∧
    mayEnd (inflightFx (.measure 5 0 none none 0 1000) (.frameField fieldProbe)) = true ∧
    (let x : Fixture := { inflightFx (.measure 5 0 none none 0 1000) (.timing timingProbe) with capture := { state := .armed } }
     mayEnd x = true ∧ x.capture.state = .armed) ∧
    (let x : Fixture := { inflightFx (.measure 5 0 none none 0 1000) (.timing timingProbe) with capture := { state := .counting } }
     mayEnd x = true ∧ x.capture.state = .counting) ∧
    (mayEnd (inflightFx (.measure 5 0 none none 0 1000) (.analog analogProbe [7])) = true ∧ quiet.conv.burst = none) ∧
    ({} : Converter).burst.any (fun b => b.requester ≠ .fixture 1) = true ∧
    mayEnd (inflightFx (.prompt .ack 1000 []) (.prompt 4)) = true ∧
    mayEnd (inflightFx (.waitFor (.quiescent 500 3000) 0) (.quiescent none none (some 4990))) = true ∧
    (let b := burstOf (.point 1 3 .high) 4 (.converting 5000040)
     b.requester = .fixture 1 ∧ b.orphan = false ∧ ({ b with orphan := true } : Burst).orphan = true) ∧
    (let b := burstOf (.point 1 3 .high) 4 (.waitReady 4999990)
     b.requester = .fixture 1 ∧ b.orphan = false ∧ b.stage = .waitReady 4999990 ∧ quiet.lend.matrix = .owned ∧
       ({ quiet with lend := { matrix := .pending .hold 100 } } : Part).lend.matrix = .pending .hold 100) ∧
    (let x := fun r : Range => { inflightFx (.waitFor (.quiescent 500 3000) 1000) (.quiescent none (some 3) none) with
        supply := { state := .on, range := r } }
     mayEnd (x .low) = true ∧ (x .low).supply.range = .low ∧ mayEnd (x .high) = true ∧ (x .high).supply.range = .high) := by
  decide +kernel

theorem witness_FailurePolicyActs :
    let x : Policy → List StepBody → Fixture := fun pol l =>
      { inflightFx (.waitFor .supplyOn 1000) .plain with run := { runFx.run with policy := pol }, queue := l.map stepOf }
    ((x .cont [.wait 1]).run.isOpen = true ∧ (x .cont []).run.policy = .cont) ∧
    ((x .skip [.wait 1]).run.policy = .skip ∧ ∀ st ∈ (x .skip [.wait 1]).queue, st.body ≠ .mark) ∧
    ((x .skip [.wait 1, .mark, .wait 2]).queue = [stepOf (.wait 1)] ++ stepOf .mark :: [stepOf (.wait 2)] ∧
      (∀ st ∈ [stepOf (.wait 1)], st.body ≠ .mark) ∧ (stepOf .mark).body = .mark) ∧
    (x .stop []).run.policy = .stop := by decide +kernel

theorem witness_SwitchesAreDebounced :
    ({ quiet with powered := false } : Part).powered = false ∧ ({ quiet with fitted := .two } : Part).isFitted 2 = false ∧
    (quiet.isFitted 1 = true ∧ true ≠ (quiet.fx 1).sense.rawPresence ∧ true ≠ (quiet.fx 1).sense.rawLid) ∧
    (quiet.fx 1).sense.lidDue = none ∧ (quiet.fx 1).sense.presenceDue = none ∧
    (let x : Fixture := { sense := { rawLid := true, lidDue := some 5000000 } }
     x.sense.lidDue = some 5000000 ∧ x.sense.rawLid = true ∧ x.run.state = .none) ∧
    (let x : Fixture := { sense := { presence := true, presenceDue := some 5000000 }, run := { state := .ended } }
     x.sense.presenceDue = some 5000000 ∧ x.sense.lidDue = none ∧ x.run.state = .ended) ∧
    (let x : Fixture := { sense := { rawPresence := true, rawLid := true, presenceDue := some 5000000, lidDue := some 5000999 } }
     x.sense.presenceDue = some 5000000 ∧ x.sense.lidDue = some 5000999 ∧ 5000000 / 1000 = 5000999 / 1000 ∧
       x.sense.rawPresence = true ∧ x.sense.rawLid = true) ∧
    (let v : Sense := { rawPresence := true, rawLid := true, presenceDue := some 5000000, lidDue := some 5000001 }
     false ≠ v.rawPresence ∧ (∃ t, v.presenceDue = some t ∧ t ≤ quiet.clock) ∧
       false ≠ v.rawLid ∧ ∀ t, v.lidDue = some t → quiet.clock < t) ∧
    (let v : Sense := { rawPresence := true, rawLid := true, presenceDue := some 5000001, lidDue := some 5000000 }
     (∃ t, v.lidDue = some t ∧ t ≤ quiet.clock) ∧ ∀ t, v.presenceDue = some t → quiet.clock < t) ∧
    (let v : Sense := { presenceDue := some 5000000, presenceAfter := some 5020000 }
     (v.rawPresence != v.presenceAfter.isSome) = true) :=
  ⟨by decide +kernel, by decide +kernel, by decide +kernel, by decide +kernel, by decide +kernel, by decide +kernel, by decide +kernel,
    by decide +kernel, ⟨by decide, ⟨_, rfl, by decide⟩, by decide, by rintro t ⟨⟩; decide⟩,
    ⟨⟨_, rfl, by decide⟩, by rintro t ⟨⟩; decide⟩, by decide⟩

theorem witness_InterlockHaltsTheRun :
    (let x : Fixture := { runFx with sense := { runFx.sense with rawLid := false, lidDue := some 5000000 } }
     x.sense.lidDue = some 5000000 ∧ x.sense.rawLid = false ∧ x.run.isOpen = true) ∧
    (let x : Fixture := { runFx with sense := { runFx.sense with rawPresence := false, presenceDue := some 5000000 } }
     x.sense.presenceDue = some 5000000 ∧ x.sense.lidDue = none ∧ x.sense.rawPresence = false ∧ x.run.isOpen = true) ∧
    (let x : Fixture := { run := { state := .halting }, supply := { state := .on }, sense := { lid := true, lidDue := some 5000000 } }
     x.sense.lidDue = some 5000000 ∧ x.sense.rawLid = false ∧ x.run.state = .halting ∧ x.supply.live = true) ∧
    (let x : Fixture := { runFx with sense := { runFx.sense with lidDue := some 5000000, lidAfter := some 5020000 } }
     x.sense.lidDue = some 5000000 ∧ x.sense.rawLid = x.sense.lidAfter.isSome ∧ x.run.isOpen = true) ∧
    (let x : Fixture := { runFx with sense := { runFx.sense with
        presenceDue := some 5000000, presenceAfter := some 5020000, lidDue := some 5001000 } }
     x.sense.presenceDue = some 5000000 ∧ x.sense.lidDue = some 5001000 ∧ 5000000 / 1000 ≠ 5001000 / 1000 ∧
       x.sense.rawPresence = x.sense.presenceAfter.isSome ∧ x.run.isOpen = true) := by decide +kernel

theorem witness_ClearFaultReleasesTheTrip :
    (∀ x : Fixture, (sat (withFx 1 x)).Listening) ∧ quiet.link.notices.length < 32 ∧
    ({ quiet with fitted := .two } : Part).isFitted 2 = false ∧ quiet.isFitted 1 = true ∧
    (let u : Supply := { state := .tripped, residual := true, below500 := true }
     u.state = .tripped ∧ (u.residual = false ∨ u.below500 = true)) ∧
    (let u : Supply := { state := .tripped, residual := true, below500 := false }
     u.state = .tripped ∧ u.residual = true ∧ u.below500 = false) ∧ ({} : Supply).state ≠ .tripped :=
  ⟨fun _ => listening_of rfl rfl, by decide +kernel⟩

theorem witness_ComparatorsMoveTheSupply :
    ({} : Supply).state ≠ .ramp ∧ ({} : Supply).setpoint ≠ 0 ∧ ({ setpoint := 0 } : Supply).setpoint = 0 ∧
    (let x : Fixture := { runFx with supply := { state := .ramp } }
     x.supply.state = .ramp ∧ x.supply.atLimit = false ∧ x.inflight = none) ∧
    (let x : Fixture := { inflightFx (.waitFor .supplyOn 0) .plain with supply := { state := .ramp } }
     x.supply.state = .ramp ∧ x.supply.atLimit = false ∧ mayEnd x = true) ∧
    ({} : Supply).live = false ∧ ({ state := .limit } : Supply).state = .limit ∧
    (let x : Fixture := { runFx with supply := { state := .on } }; x.supply.state = .on ∧ x.supply.range = .high ∧ x.inflight = none) ∧
    (let u : Supply := { state := .on, range := .low }; u.state = .on ∧ u.range = .low) ∧ runFx.inflight = none ∧
    (let u : Supply := { state := .ramp, limit := 50, atLimit := true }
     u.state = .ramp ∧ u.range = .high ∧ u.atLimit = true ∧ max 50 (u.limit / 4 / 10 * 10) = u.limit) ∧
    (let x : Fixture := { inflightFx (.waitFor .supplyOn 0) .plain with supply := { state := .limit } }
     x.supply.state = .limit ∧ mayEnd x = true) ∧
    (let x : Fixture := { inflightFx (.wait 9) .plain with supply := { state := .ramp } }
     x.supply.state = .ramp ∧ x.supply.range = .high ∧ x.inflight ≠ none) := by decide +kernel

/-- A part with a supply on the LOW range for a QUIESCENT step. -/
def lowRange : Part :=
  withFx 1 { inflightFx (.waitFor (.quiescent 500 3000) 0) (.quiescent none (some 3) none) with supply := { state := .on, range := .low } }

theorem witness_ComparatorsMoveTheSupply_low : lowRange.powered = true ∧ lowRange.RangeLaw ∧ (lowRange.fx 1).supply.range = .low := by
  refine ⟨rfl, fun f h => ?_, by decide +kernel⟩
  by_cases e : f = 1
  · subst e
    exact ⟨by decide +kernel, doing (.waitFor (.quiescent 500 3000) 0) (.quiescent none (some 3) none), none, some 3, none,
      by decide +kernel, rfl⟩
  · exact absurd h ((by decide +kernel : ∀ f : FixtureIx, f ≠ 1 → (lowRange.fx f).supply.range ≠ .low) f e)

theorem witness_SupplyTimersTripAndDischargesEnd :
    (quiet.powered = true ∧ ({} : Supply).state ≠ .ramp ∧ ({} : Supply).state ≠ .limit ∧ ({} : Supply).state ≠ .discharge) ∧
    (let x : Fixture := { runFx with supply := { state := .ramp, since := 4800000 } }
     x.supply.state = .ramp ∧ 5050000 = x.supply.since + 250000 ∧ x.run.isOpen = true) ∧
    (let x : Fixture := { run := { state := .halting }, supply := { state := .limit, since := 4990000, limitTime := 20 } }
     x.supply.state = .limit ∧ 5010000 = x.supply.since + x.supply.limitTime * 1000 ∧ x.run.isOpen = false) ∧
    (let x : Fixture := { run := { state := .halting }, supply := { state := .discharge } }
     x.supply.state = .discharge ∧ x.supply.range = .high ∧ x.run.state = .halting) ∧
    (let x : Fixture := { runFx with supply := { state := .discharge } }
     x.supply.state = .discharge ∧ x.run.isOpen = true ∧ x.supply.tripReason = .none) := by decide +kernel

/-- The level an input voltage gives from a level (R72). -/
def levelOf (was : RackLevel) (mv : Nat) : Option RackLevel :=
  (partAfter (.rackLevel mv) (sat { quiet with rack := { level := was } })).map (·.rack.level)

theorem witness_RackLevelFollowsTheInput :
    quiet.powered = true ∧ (∀ f, (quiet.fx f).supply.live = false) ∧ ((withSupply { state := .on }).fx 1).supply.live = true ∧
    [levelOf .normal 22001, levelOf .normal 22000, levelOf .normal 19000, levelOf .low 19000, levelOf .low 22500, levelOf .low 22501,
     levelOf .cutoff 19500, levelOf .cutoff 19501, levelOf .cutoff 22501].map (·.map RackLevel.code) =
      [some 0, some 1, some 2, some 2, some 1, some 0, some 2, some 1, some 0] := by decide +kernel

/-- A DEFINE_CHANNEL payload for channel 3 of fixture 1. -/
def channelPayload (level mode start count first unit : Nat) : List Byte :=
  bytes [3, 1, level, mode] ++ le16 2 ++ le16 start ++ le16 count ++ le16 100 ++ le16 16384 ++ bytes [first, unit, 3]

/-- The quiet part with channel 3 as given. -/
def withCh (c : Channel) : Part := quiet.modCh 3 fun _ => c

theorem witness_ChannelsAreDefinedMarkedAndCleared :
    (∀ c : Channel, (sat (withCh c)).Listening) ∧ quiet.link.notices.length < 32 ∧ 31 < (32 : Byte).toNat ∧
    ((withCh (aChannel .once .faulted none)).ch 3).state = .faulted ∧ ((withCh {}).ch 3).state ≠ .faulted ∧
    (let p := channelPayload 3 2 0 16384 2 1
     p.length = 17 ∧ p.getD 0 0 = BitVec.ofNat 8 (3 : ChannelIx).val ∧ p.getD 1 0 = BitVec.ofNat 8 (1 : FixtureIx).val ∧
       quiet.isFitted 1 = true ∧ byteAt p 2 ≤ 3 ∧ byteAt p 3 ≤ 2 ∧ byteAt p 15 ≤ 1 ∧ 1 ≤ u16At p 8 ∧ u16At p 6 + u16At p 8 ≤ 16384 ∧
       ¬ (u16At p 10 + u16At p 12 ≤ 16384)) ∧
    (let p := channelPayload 3 1 16383 1 0 1
     byteAt p 3 = 1 ∧ 1 ≤ u16At p 8 ∧ u16At p 8 ≤ 16384 ∧ u16At p 6 + u16At p 8 ≤ 16384) ∧
    (∀ f : FixtureIx, byteAt ([3, 8] : List Byte) 1 = f.val → quiet.isFitted f = false) ∧
    (let d := aChannel .pingpong .starved (some .a)
     ∃ e, d.defn = some e ∧ e.mode = .pingpong ∧ d.state = .starved ∧ e.bCount ≤ 65535 ∧ d.position ≤ 65535) ∧
    (2 < (3 : Byte).toNat ∧ (0 : Byte).toNat = 0 ∧ ((withCh {}).ch 3).defn = none) ∧
    (∃ e, (aChannel .once .idle none).defn = some e ∧ e.mode ≠ .pingpong) ∧
    (let c := aChannel .pingpong .playing (some .a)
     c.state = .playing ∧ c.bank = some .a ∧ ¬ (c.state = .playing ∧ c.bank = some .b)) ∧
    (let p : Part := { withCh (aChannel .pingpong .starved (some .a)) with pathBusy := some 5000003 }
     (p.ch 3).state = .starved ∧ p.pathBusy ≠ none ∧ (p.ch 3).bank = some .a) ∧
    (let p : Part := { withCh (aChannel .pingpong .starved none) with pathBusy := some 5000003 }
     (p.ch 3).state = .starved ∧ p.pathBusy ≠ none ∧ (p.ch 3).bank = none) ∧
    (let p : Part := withCh (aChannel .pingpong .starved (some .b))
     (p.ch 3).state = .starved ∧ p.pathBusy = none ∧ (p.ch 3).bank = some .b) ∧
    (let p : List Byte := 32 :: List.replicate 16 0; p.length = 17 ∧ 31 < byteAt p 0) :=
  ⟨fun _ => listening_of rfl rfl, by decide +kernel, by decide, by decide +kernel, by decide +kernel, by decide +kernel, by decide +kernel,
    by decide +kernel, ⟨_, rfl, by decide⟩, by decide +kernel, ⟨_, rfl, by decide⟩, by decide +kernel, by decide +kernel, by decide +kernel, by decide +kernel, by decide +kernel⟩

/-- A record of target NONE, and one whose target no list names. -/
def goodRecord : List Byte := padTo 16 0 []
def badRecord : List Byte := padTo 16 0 (bytes [13])

theorem witness_PatternMemoryReadsWhatWasWritten :
    (sat quiet).Listening ∧ ((0 : Byte).toNat < 1 ∧ 64 < (65 : Byte).toNat ∧ 16383 < (0 : Byte).toNat + 256 * (0x40 : Byte).toNat) ∧
    (1 ≤ (64 : Byte).toNat ∧ (64 : Byte).toNat ≤ 64 ∧ (0xFF : Byte).toNat + 256 * (0x3F : Byte).toNat ≤ 16383) ∧
    ((∀ r ∈ [goodRecord], r.length = 16) ∧ [goodRecord].length ≠ 2) ∧ (16384 < 16383 + 2 ∧ [goodRecord, goodRecord].length = 2) ∧
    ([goodRecord, badRecord] = [goodRecord] ++ badRecord :: [] ∧ (∀ r ∈ [goodRecord], recordOk r = true) ∧
      recordOk badRecord = false ∧ 16382 + 2 ≤ 16384) ∧
    ((withCh (aChannel .once .playing (some .a))).ch 3).inPlay = some (10, 4) ∧ (10 < 13 + 1 ∧ 13 < 10 + 4) ∧
    (∀ c : ChannelIx, (quiet.ch c).inPlay = none) ∧ Pattern.wf quiet.pattern = true ∧
    ((List.replicate 17 0 : List Byte).length ≠ 16 * (1 : Byte).toNat ∧ ([] : List Byte).length ≠ 16 * (64 : Byte).toNat) :=
  ⟨listening_of rfl rfl, by decide +kernel⟩

theorem witness_ArbiterChoosesByLevelKindAndNumber :
    (let p : Part := (withFx 1 (inflightFx (.set goodRecord) .plain)).modCh 3 fun _ =>
       { aChannel .once .playing (some .a) with due := true }
     p.nextRecord = some (.channel 3)) ∧
    (withFx 1 (inflightFx (.set goodRecord) .plain)).nextRecord = some (.setStep 1) ∧
    quiet.nextRecord = none ∧ quiet.pathBusy = none ∧ ({ quiet with pathBusy := some 5000003 } : Part).pathBusy = some 5000003 := by
  decide +kernel

/-- A SET step of fixture 1 whose record is due, the fixture otherwise as given. -/
def setting (r : List Byte) (x : Fixture) : Part := withFx 1 { x with inflight := some (doing (.set r) .plain) }

/-- A record of a target with its fields. -/
def record (l : List Nat) : List Byte := padTo 16 0 (bytes (l.take 1 ++ [0, 0] ++ l.drop 1))

theorem witness_SetRecordsReachTheirTargets :
    (let p := setting goodRecord runFx
     p.powered = true ∧ p.pathBusy = none ∧ p.nextRecord = some (.setStep 1) ∧ mayEnd (p.fx 1) = true) ∧
    parseRecord goodRecord = some .none ∧
    (parseRecord (record [1, 0x10, 0x27]) = some (.aout0 10000) ∧ parseRecord (record [2, 0x11, 0x27]) = some (.aout1 10001)) ∧
    (parseRecord (record [4, 64]) = some (.pwmDuty 64) ∧ parseRecord (record [4, 65]) = some (.pwmDuty 65)) ∧
    (parseRecord (record [3, 1, 8, 1, 1]) = some (.pwmCfg { slowBase := true, divider := 8, activeLow := true } true) ∧
      parseRecord (record [3, 0, 1, 0, 0]) = some (.pwmCfg {} false)) ∧
    (parseRecord (record [5]) = some (.pulseCfg { high := 0, low := 0, count := 0 }) ∧
      parseRecord (record [5, 1, 0, 1, 0, 3, 0]) = some (.pulseCfg { high := 1, low := 1, count := 3 })) ∧
    (parseRecord (record [6, 1]) = some (.pulseRun true) ∧ parseRecord (record [6, 0]) = some (.pulseRun false)) ∧
    (parseRecord (record [7, 3, 5]) = some (.lineDir 3 5) ∧ parseRecord (record [8, 3, 1]) = some (.lineDrive 3 1) ∧
      runFx.capture.state = .idle) ∧
    (parseRecord (record [9, 0xFF, 7, 0, 0, 8]) = some (.canTx 0x7FF false 8 (List.replicate 8 0)) ∧ runFx.port.queue.length < 16 ∧
      16 ≤ (List.replicate 16 (0 : Nat)).length) ∧
    ([record [11], record [11, 1], record [11, 0xB8, 0x0B], record [11, 0x50, 0x46], record [11, 0x51, 0x46]].map parseRecord =
      [some (.supplyVolts 0), some (.supplyVolts 1), some (.supplyVolts 3000), some (.supplyVolts 18000), some (.supplyVolts 18001)] ∧
      runFx.supply.state = .off) ∧
    parseRecord (record [12, 50, 0, 1, 0, 100, 0]) = some (.supplyLimit 50 1 100) ∧
    (parseRecord (record [10, 1]) = some (.supplyState true) ∧ quiet.rack.level = .normal ∧ runFx.supply.setpoint ≠ 0 ∧
      ({ quiet with rack := { level := .low } } : Part).rack.level ≠ .normal ∧ ({ state := .limit } : Supply).state = .limit) ∧
    (parseRecord (record [10, 0]) = some (.supplyState false) ∧ ({ state := .on } : Supply).live = true ∧
      ({ state := .on } : Supply).range = .high) := by decide +kernel

/-- The boundary values of the supply's clauses: a setpoint and a limit moved at a live supply, and the states ON starts from. -/
theorem witness_SetRecordsReachTheirTargets_live :
    (let p := setting (record [11]) { runFx with supply := { state := .ramp } }
     p.nextRecord = some (.setStep 1) ∧ p.pathBusy = none ∧ mayEnd (p.fx 1) = true) ∧
    (let u : Supply := { state := .on, setpoint := 12000, inRegulation := true, below500 := false }
     u.state = .on ∧ (3000 ≤ u.setpoint ∧ u.inRegulation = true ∧ u.below500 = false) ∧
       ({ u with inRegulation := false } : Supply).inRegulation = false ∧ u.setpoint ≤ 12000 ∧
       ({ u with state := .discharge, below500 := true } : Supply).below500 = true) ∧
    (let u : Supply := { state := .ramp, setpoint := 12000, inRegulation := false, below500 := false }
     u.state = .ramp ∧ u.inRegulation = false ∧ u.atLimit = false ∧ 3000 < u.setpoint ∧ u.setpoint ≤ 12000) ∧
    (let u : Supply := { state := .ramp, limit := 1000, atLimit := true }
     u.state = .ramp ∧ max 50 (u.limit / 4 / 10 * 10) < max 50 (1040 / 4 / 10 * 10) ∧
       max 50 (1030 / 4 / 10 * 10) ≤ max 50 (u.limit / 4 / 10 * 10) ∧ max 50 (990 / 4 / 10 * 10) < max 50 (u.limit / 4 / 10 * 10)) ∧
    (let u : Supply := { state := .on, limit := 1000, range := .low }
     u.range = .low ∧ 990 < u.limit ∧ ({ u with range := .high } : Supply).range = .high ∧ u.limit ≤ 1000) ∧
    (let u : Supply := { state := .limit, limit := 1000, since := 4990000 }
     u.state = .limit ∧ quiet.clock < u.since + 11 * 1000 ∧ u.since + 10 * 1000 ≤ quiet.clock ∧ u.limit < 1010 ∧ 1000 ≤ u.limit) ∧
    (let u : Supply := { state := .discharge, setpoint := 12000, inRegulation := true, tripReason := .none }
     u.tripReason = .none ∧ u.inRegulation = true ∧ u.atLimit = false ∧ ({ u with inRegulation := false } : Supply).inRegulation = false ∧
       ({ u with setpoint := 0, state := .off } : Supply).setpoint = 0) := by decide +kernel

theorem witness_ChannelsPlayTheirBanks :
    (let c : Channel := { aChannel .once .playing (some .a) with due := true }
     let p : Part := { withCh c with pattern := [(161, 0), (193, 1)] }
     c.state = .playing ∧ c.bank = some .a ∧ (quiet.fx 1).inflight = none ∧ p.pathBusy = none ∧ p.nextRecord = some (.channel 3) ∧
       parseRecord (Pattern.slot p.pattern c.position) = some .none ∧ u16At (Pattern.slot p.pattern c.position) 1 ≠ 0 ∧ c.due = true) ∧
    (let p : Part := { withCh (aChannel .once .playing (some .a)) with pattern := [(192, 1), (193, 1), (195, 5)] }
     parseRecord (Pattern.slot p.pattern 12) = some (.aout0 5) ∧ u16At (Pattern.slot p.pattern 12) 1 ≠ 0) ∧
    (let p : Part := { withCh (aChannel .once .playing (some .a)) with pattern := [(192, 9)] }
     parseRecord (Pattern.slot p.pattern 12) = some (.canTx 0 false 0 []) ∧
       16 ≤ (List.replicate 16 ({ id := 0, extended := false, length := 0, data := [], attempts := 0 } : TxFrame)).length) ∧
    ((aChannel .once .playing (some .a)).due = false ∧ 0 < (aChannel .once .playing (some .a)).remaining ∧
      ({ quiet with pathBusy := some 5000003 } : Part).pathBusy ≠ none) ∧
    (let c : Channel := { aChannel .circular .playing (some .a) with remaining := 0, passes := 1 }
     ∃ d, c.defn = some d ∧ c.remaining = 0 ∧ d.mode = .circular ∧ d.repeats ≠ 0 ∧ d.repeats ≤ min 65535 (c.passes + 1)) ∧
    (let c : Channel := { aChannel .circular .playing (some .a) with remaining := 0 }
     ∃ d, c.defn = some d ∧ c.remaining = 0 ∧ min 65535 (c.passes + 1) < d.repeats) ∧
    (let c : Channel := { aChannel .once .playing (some .a) with remaining := 0 }
     ∃ d, c.defn = some d ∧ c.remaining = 0 ∧ d.mode = .once) ∧
    (let c : Channel := { aChannel .pingpong .playing (some .a) with remaining := 0, readyB := true }
     ∃ d, c.defn = some d ∧ c.remaining = 0 ∧ d.mode = .pingpong ∧ c.readyB = true) ∧
    (let c : Channel := { aChannel .pingpong .playing (some .b) with remaining := 0 }
     ∃ d, c.defn = some d ∧ c.remaining = 0 ∧ d.mode = .pingpong ∧ c.readyA = false) ∧
    (let c : Channel := { aChannel .once .playing (some .a) with due := true }
     let p : Part := { withCh c with pattern := [(192, 10), (195, 1)], rack := { level := .low } }
     p.nextRecord = some (.channel 3) ∧ parseRecord (Pattern.slot p.pattern 12) = some (.supplyState true) ∧
       (p.fx 1).supply.state = .off ∧ p.rack.level ≠ .normal ∧ (p.fx 1).inflight = none) :=
  ⟨by decide +kernel, by decide +kernel, by decide +kernel, by decide +kernel, ⟨_, rfl, by decide⟩, ⟨_, rfl, by decide⟩,
    ⟨_, rfl, by decide⟩, ⟨_, rfl, by decide⟩, ⟨_, rfl, by decide⟩, by decide +kernel⟩

theorem witness_DimmerAndPulsesKeepTheirTimes :
    (let w : Pwm := { enabled := true, duty := 16, periodStart := 4999985 }
     w.enabled = true ∧ quiet.clock - w.periodStart < w.duty * 1) ∧
    (let w : Pwm := { enabled := true, duty := 16, periodStart := 4999984 }
     w.enabled = true ∧ w.duty * 1 ≤ quiet.clock - w.periodStart) ∧
    (let w : Pwm := { enabled := true, duty := 64, periodStart := 4999936 }
     w.enabled = true ∧ 64 ≤ w.duty ∧ ¬ quiet.clock - w.periodStart < w.duty * 1) ∧
    ({} : Pwm).enabled = false ∧ ({} : Pulse).phase = .stopped ∧ ({ phase := .high } : Pulse).phase = .high ∧
    ({ phase := .low } : Pulse).phase = .low := by decide +kernel

theorem witness_LinesAreReadAndTimed :
    (runFx.inflight = none ∧ runFx.capture.state = .idle ∧ ({ quiet with powered := false } : Part).powered = false) ∧
    (let x : Fixture := { inflightFx (.waitFor (.line 4 true) 0) .plain with outs := { inEnable := 0x10 } }
     mayEnd x = true ∧ x.outs.reads 4 ≠ true ∧ ({ x.outs with pins := 0x10 } : Outputs).reads 4 = true ∧
       ({ x.outs with pins := 0x20 } : Outputs).reads 4 = x.outs.reads 4) ∧
    (let x : Fixture := { inflightFx (.measure 5 0 none none 0 0) (.timing timingProbe) with
        outs := { inEnable := 0x10 }, capture := { state := .armed, line := 4, window := 4 } }
     mayEnd x = true ∧ x.outs.reads x.capture.line = false ∧ ({ x.outs with pins := 0x10 } : Outputs).reads x.capture.line = true ∧
       x.capture.state = .armed) ∧
    (let u : Capture := { state := .counting, line := 4, window := 4, periods := 3, total := 16000000, high := 7 }
     u.state = .counting ∧ u.total ≤ 16000000 ∧ u.periods + 1 = u.window ∧ timingProbe.body = .timing 4 .periodUs 4) ∧
    (let u : Capture := { state := .counting, line := 4, window := 4, periods := 2, total := 3000 }
     u.state = .counting ∧ u.total ≤ 16000000 ∧ u.periods + 1 < u.window) := by decide +kernel

/-- A data frame of identifier 3A4h. -/
def aFrame (kind : FrameKind) : BusFrame := { kind := kind, extended := false, id := 0x3A4, dlc := 4, data := bytes [1, 2, 3, 4], underWay := false }

theorem witness_FramesReachWatchesAndAttemptsEnd :
    (quiet.fx 1).port.state = .inactive ∧ ({ aFrame .data with underWay := true } : BusFrame).underWay = true ∧ (aFrame .own).kind = .own ∧
    (runFx.port.state ≠ .inactive ∧ (aFrame .damaged).underWay = false ∧ (aFrame .damaged).kind = .damaged ∧
      (aFrame .remote).kind = .remote ∧ (aFrame .data).kind = .data) ∧
    (let x : Fixture := { inflightFx (.waitFor (.frame 1) 0) .plain with watch := oneWatch }
     mayEnd x = true ∧ (x.watchOf 1).enabled = true ∧ (x.watchOf 1).extended = (aFrame .data).extended ∧
       (∀ k : Fin 29, (x.watchOf 1).mask.getLsbD k.val = true → (aFrame .data).id.getLsbD k.val = (x.watchOf 1).id.getLsbD k.val) ∧
       (x.watchOf 0).enabled = false) ∧
    (let x : Fixture := { inflightFx (.measure 5 0 none none 0 0) (.frameField fieldProbe) with watch := oneWatch }
     mayEnd x = true ∧ fieldProbe.body = .frameField 1 0 16 false 1 4 0) ∧
    (runFx.watchedEntry = none) ∧
    (let h : TxFrame := { id := 1, extended := false, length := 0, data := [], attempts := 6 }
     let t : Port := { state := .active, queue := [h] }
     t.state = .active ∧ t.queue ≠ [] ∧ t.attempt = .none ∧ h.attempts + 1 < 8 ∧ 8 ≤ ({ h with attempts := 7 } : TxFrame).attempts + 1 ∧
       ({ t with attempt := .head } : Port).attempt = .head ∧ ({ t with attempt := .orphan (t.queue.headD ⟨0, false, 0, [], 0⟩) } : Port).attempt ≠ .none) := by
  decide +kernel

/-- A DEFINE_WATCH payload for entry 1 of fixture 1. -/
def watchPayload (id ext enable : Nat) : List Byte := bytes [1, 1] ++ le32 id ++ le32 0x1FFFFFFF ++ bytes [ext, enable]

/-- A DEFINE_PROBE payload for probe 5 of fixture 1. -/
def probePayload (kind a b c d : Nat) (rest : List Byte) : List Byte := bytes [5, kind, 1, 15, a, b, c, d] ++ padTo 8 0 rest

theorem witness_WatchesAndProbesAreDefinedAndRead :
    (∀ x : Fixture, (sat (withFx 1 x)).Listening) ∧ ({ quiet with fitted := .two } : Part).isFitted 2 = false ∧ quiet.isFitted 1 = true ∧
    (let p := watchPayload 0x7FF 0 1
     p.length = 12 ∧ p.getD 0 0 = BitVec.ofNat 8 (1 : FixtureIx).val ∧ byteAt p 1 = (1 : Fin 8).val ∧ byteAt p 10 ≤ 1 ∧
       byteAt p 11 ≤ 1 ∧ u32At p 2 ≤ 0x7FF ∧ u32At p 6 ≤ 0x1FFFFFFF) ∧
    0x7FF < u32At (watchPayload 0x800 0 1) 2 ∧ (u32At (watchPayload 0x1FFFFFFF 1 0) 2 ≤ 0x1FFFFFFF ∧ byteAt (watchPayload 0 1 0) 11 ≠ 1) ∧
    (mayEnd (inflightFx (.waitFor (.frame 1) 0) .plain) = true ∧ (inflightFx (.waitFor (.frame 1) 0) .plain).watchedEntry = some 1 ∧
      mayEnd (inflightFx (.measure 5 0 none none 0 0) (.frameField fieldProbe)) = true) ∧
    7 < (8 : Byte).toNat ∧ 127 < (128 : Byte).toNat ∧
    (let p := probePayload 1 7 0 15 64 (leInt32 (-2000000) ++ leInt32 2000000)
     p.length = 16 ∧ byteAt p 0 = (5 : ProbeIx).val ∧ byteAt p 1 = 1 ∧ byteAt p 2 = (1 : FixtureIx).val ∧ byteAt p 3 ≤ 15 ∧
       byteAt p 6 ≤ 15 ∧ -2000000 ≤ s32At p 8 ∧ s32At p 8 < s32At p 12 ∧ s32At p 12 ≤ 2000000) ∧
    (let p := probePayload 2 7 3 16 0 []; byteAt p 1 = 2 ∧ byteAt p 4 ≤ 7 ∧ byteAt p 5 ≤ 3 ∧ 1 ≤ byteAt p 6 ∧ byteAt p 6 ≤ 16) ∧
    (let p := probePayload 3 7 32 32 1 (le16 1 ++ le16 32767)
     byteAt p 1 = 3 ∧ byteAt p 5 + byteAt p 6 ≤ 64 ∧ byteAt p 7 ≤ 1 ∧ 1 ≤ u16At p 10 ∧ u16At p 10 ≤ 32767) ∧
    byteAt (probePayload 4 0 0 0 0 []) 1 = 4 ∧
    ((starting (inflightFx (.measure 5 0 none none 0 0) (.timing timingProbe)) (some timingProbe) {}).probeInUse 5 = true ∧
      quiet.probeInUse 5 = false) :=
  ⟨fun _ => listening_of rfl rfl, by decide +kernel⟩

/-- The quiet part with a lend state. -/
def withLend (l : Lend) : Part := { quiet with lend := l }

theorem witness_LendsAreGrantedBetweenBursts :
    (∀ l : Lend, (sat (withLend l)).Listening) ∧ quiet.link.notices.length < 32 ∧
    ((99 : Byte).toNat + 256 * (0 : Byte).toNat < 100 ∧ 10000 < (0x11 : Byte).toNat + 256 * (0x27 : Byte).toNat) ∧
    (100 ≤ (100 : Byte).toNat + 256 * (0 : Byte).toNat ∧ (0x10 : Byte).toNat + 256 * (0x27 : Byte).toNat ≤ 10000) ∧
    (({ matrix := .pending .hold 100 } : Lend).matrix ≠ .owned ∧ quiet.lend.matrix = .owned ∧ quiet.conv.burst = none ∧
      ({} : Converter).burst ≠ none) ∧
    (({ holdLine := true } : Lend).holdLine = true ∧ quiet.lend.holdLine = false ∧ ({ holdBlocked := true } : Lend).holdBlocked = true ∧
      ({ quiet with powered := false } : Part).powered = false) ∧
    ({ matrix := .lent .request 100 5000000 } : Lend).matrix = .lent .request 100 5000000 :=
  ⟨fun _ => listening_of rfl rfl, by decide +kernel⟩

theorem witness_LendsEndAndGiveTheMatrixBack :
    (∀ l : Lend, (sat (withLend l)).Listening) ∧ quiet.link.notices.length < 32 ∧ quiet.powered = true ∧ quiet.lend.matrix = .owned ∧
    quiet.lend.holdLine = false ∧
    (let l : Lend := { matrix := .lent .hold 2000 4500000, holdLine := true }
     l.matrix = .lent .hold 2000 4500000 ∧ l.holdLine = true ∧ l.holdBlocked = false) ∧
    (let l : Lend := { matrix := .pending .hold 2000, holdLine := true }
     l.matrix = .pending .hold 2000 ∧ l.holdLine = true ∧ l.holdBlocked = false) ∧
    (let l : Lend := { matrix := .lent .request 100 4950000, holdLine := true, holdBlocked := true }
     l.matrix = .lent .request 100 4950000 ∧ l.holdLine = true ∧ l.holdBlocked = true) ∧
    (({ quiet with powered := false, lend := { holdLine := true } } : Part).powered = false) ∧
    (let i := doing (.waitFor (.quiescent 500 3000) 0) (.quiescent none (some 3) none)
     (({ runFx with inflight := some i } : Fixture).inflight = some i ∧ i.progress = .quiescent none (some 3) none)) ∧
    (quiet.conv.reference = none ∧ (∀ f, quiet.conv.req f = none) ∧ ({} : Converter).reference = some 4) :=
  ⟨fun _ => listening_of rfl rfl, by decide +kernel⟩

/-- The quiet part whose fixtures 1 and 2 wait for the converter. -/
def asking (k : ConvKind) (last : Option ConvInput) (flags : BitVec 8) : Converter :=
  { (quiet.conv.setReq 1 (some { level := 2, kind := k, remaining := 9 })).setReq 2
      (some { level := 2, kind := .quiescent, remaining := 4 }) with lastInput := last, rangeSettle := flags }

theorem witness_BurstsAreGrantedInOrder :
    quiet.powered = true ∧ ({} : Converter).burst ≠ none ∧ quiet.conv.reference = none ∧
    (let v := asking (.analog 3 (.fixed 2)) none 0
     v.burst = none ∧ v.reference = none ∧ v.req 1 = some { level := 2, kind := .analog 3 (.fixed 2), remaining := 9 } ∧
       (v.req 2).any (fun q => q.level = 2) = true ∧ (∀ g : FixtureIx, g ≠ 1 → g ≠ 2 → v.req g = none) ∧ v.lastInput ≠ some (.point 1 3 .high)) ∧
    (let v := asking (.analog 9 .ready) none 0x02
     v.rangeSettle.getLsbD (1 : FixtureIx).val = true ∧ (v.req 1).map (·.kind) = some (.analog 9 .ready)) ∧
    ((asking (.analog 3 (.fixed 0)) (some (.point 1 3 .high)) 0).lastInput = some (.point 1 3 .high)) ∧
    ((asking .quiescent none 0).req 1).map (·.kind) = some .quiescent ∧
    ({ quiet.conv with reference := some 4 } : Converter).reference = some 4 := by decide +kernel

theorem witness_SettlesAndReferenceTimerAct :
    quiet.conv.burst = none ∧ ({ quiet with powered := false } : Part).powered = false ∧
    (let b := burstOf (.point 1 3 .high) 8 (.settling 5000200); b.stage = .settling 5000200) ∧
    (let b := burstOf (.point 1 3 .high) 8 (.waitReady 4999901)
     b.requester = .fixture 1 ∧ b.stage = .waitReady 4999901 ∧ quiet.clock < 4999901 + 100) ∧
    (let b := burstOf (.point 1 3 .high) 8 (.waitReady 4999900)
     b.stage = .waitReady 4999900 ∧ 4999900 + 100 ≤ quiet.clock) ∧
    (let x := inflightFx (.measure 5 0 none none 0 0) (.analog analogProbe [])
     x.sense.ready = false ∧ mayEnd x = true ∧ quiet.lend.matrix = .owned ∧ quiet.conv.reference = none ∧
       ∀ h : FixtureIx, h ≠ 1 → (quiet.conv.setReq 1 (some { level := 3, kind := .analog 3 .ready, remaining := 4 })).req h = none) ∧
    (({ runFx with sense := { ready := true } } : Fixture).sense.ready = true) ∧ ({} : Converter).reference ≠ none := by decide +kernel

theorem witness_BurstsReturnTheirCodes :
    quiet.powered = true ∧ quiet.conv.burst = none ∧
    (let b := { burstOf (.point 1 3 .high) 4 (.converting 5000040) with orphan := true }
     b.stage = .converting 5000040 ∧ b.orphan = true ∧ quiet.lend.matrix = .owned ∧
       (withLend { matrix := .pending .hold 100 }).lend.matrix = .pending .hold 100) ∧
    (let v := (checking false).part.conv
     (∃ b, v.burst = some b ∧ b.stage = .converting 5000040 ∧ b.orphan = false ∧ b.requester = .reference) ∧ v.reference ≠ none ∧
       ∀ f, v.req f = none) ∧
    (let b := burstOf (.point 1 3 .high) 8 (.converting 5000080)
     let got := ((Vector.replicate 8 7 : Codes).toList).map fun c => c.toNat
     b.requester = .fixture 1 ∧ b.orphan = false ∧ got.length = b.count ∧ b.count < 9 ∧
       mayEnd (inflightFx (.measure 5 0 none none 0 0) (.analog analogProbe [7])) = true ∧
       analogProbe.body = .analog 3 (.fixed 2) 4 0 1000) ∧
    (let b := burstOf (.point 1 3 .high) 4 (.converting 5000040)
     let r : ConvRequest := { level := 3, kind := .analog 3 (.fixed 2), remaining := 4 }
     b.count = r.remaining ∧ mayEnd (inflightFx (.measure 5 0 none none 0 0) (.analog analogProbe [])) = true ∧
       mayEnd (inflightFx (.measure 5 8 none none 0 0) (.analog analogProbe [7, 7, 7, 7])) = true) :=
  ⟨by decide +kernel, by decide +kernel, by decide +kernel, ⟨⟨_, rfl, by decide⟩, by decide +kernel, by decide +kernel⟩, by decide +kernel,
    by decide +kernel⟩

/-- A QUIESCENT reading of fixture 1 being converted. -/
def reading (range : Range) (since : Option (BitVec 32)) (ref : Bool) : State :=
  sat { withFx 1 { inflightFx (.waitFor (.quiescent 500 3000) 0) (.quiescent none since none) with
      supply := { state := .on, range := range } } with
    conv := { quiet.conv.setReq 1 (some { level := 3, kind := .quiescent, remaining := 4 }) with
      refFault := ref, burst := some (burstOf (.point 1 9 range) 4 (.converting 5000040)) } }

theorem witness_QuiescentReadingsAreJudged :
    (let s := reading .low (some 2000) false
     s.part.powered = true ∧ s.part.conv.burst = some (burstOf (.point 1 9 .low) 4 (.converting 5000040)) ∧
     s.part.conv.req 1 = some { level := 3, kind := .quiescent, remaining := 4 } ∧ s.part.lend.matrix = .owned ∧
     s.part.conv.reference = none ∧ (∀ g : FixtureIx, g ≠ 1 → s.part.conv.req g = none) ∧ mayEnd (s.part.fx 1) = true ∧
     (s.part.fx 1).inflight = some (doing (.waitFor (.quiescent 500 3000) 0) (.quiescent none (some 2000) none)) ∧
     (s.part.fx 1).supply.state = .on ∧ (s.part.fx 1).supply.range = .low ∧ s.part.conv.refFault = false) ∧
    (let s := reading .high none true
     s.part.powered = true ∧ s.part.conv.burst = some (burstOf (.point 1 9 .high) 4 (.converting 5000040)) ∧
     s.part.conv.req 1 = some { level := 3, kind := .quiescent, remaining := 4 } ∧ s.part.lend.matrix = .owned ∧
     s.part.conv.reference = none ∧ (∀ g : FixtureIx, g ≠ 1 → s.part.conv.req g = none) ∧ mayEnd (s.part.fx 1) = true ∧
     (s.part.fx 1).inflight = some (doing (.waitFor (.quiescent 500 3000) 0) (.quiescent none none none)) ∧
     (s.part.fx 1).supply.state = .on ∧ (s.part.fx 1).supply.range = .high ∧ s.part.conv.refFault = true) ∧
    (let s := reading .low (some 2000) false
     let p := s.part.advanceTo 5000040
     (analogValue [171, 171, 171, 172] s.part.conv.cref (0, 10000) < 500) ∧ 3000 ≤ (p.uptime - 2000).toNat) ∧
    (4095 : Nat) ∈ [4095, 0, 0, 0] := by decide +kernel

/-- A console with one entry of fixture 1 and a press bound to it. -/
def pressed (cls : EntryClass) (phase : PressPhase) (k : Button) : Console :=
  let b : ButtonState := { down := true, press := some { phase := phase, bound := some 4, longTime := 2, downAt := 4000000 } }
  { entries := [{ id := 4, owner := 1, cls := cls, text := [] }], nextId := 5
    pass := if k = .pass then b else {}, fail := if k = .fail then b else {} }

theorem witness_PressesActOnTheirEntry :
    (({} : Console).pass.down = false ∧ ({ quiet with powered := false } : Part).powered = false ∧ ({} : Console).fail.down = false) ∧
    (let x := pressed .safety .qualifying .fail
     x.pass.down = false ∧ x.fail.down = true ∧ (x.fail.press.map (·.phase)) = some .qualifying) ∧
    (let x := pressed .safety .held .pass
     x.pass.down = true ∧ (x.pass.press.map (·.phase)) = some .held ∧ (x.entries.map (·.id)).Nodup ∧
       (∃ e ∈ x.entries, x.pass.press.bind (·.bound) = some e.id ∧ consoleFor e.owner = .a ∧ e.isSafety = true)) ∧
    (let x := pressed (.normal .ack 9 7) .held .fail
     ∃ e ∈ x.entries, x.fail.press.bind (·.bound) = some e.id ∧ e.cls = .normal .ack 9 7 ∧ e.isSafety = false) ∧
    (let x := { pressed .safety .held .pass with entries := [] }
     (x.pass.press.map (·.phase)) = some .held ∧ ∀ e ∈ x.entries, x.pass.press.bind (·.bound) ≠ some e.id) ∧
    (let x := inflightFx (.prompt .confirm 0 []) (.prompt 4)
     mayEnd x = true ∧ x.run.isOpen = true ∧ (quiet.fx 1).run.isOpen = false) ∧
    ((pressed .safety .cancelled .pass).pass.press.map (·.phase)) ≠ some .held := by decide +kernel

theorem witness_StopSwitchHaltsItsFixtures :
    (({} : Console).stopRaw = false ∧ true ≠ ({} : Console).stopRaw ∧ ({} : Console).stopDue = none ∧ quiet.powered = true) ∧
    (let x : Console := { stopRaw := true, stopDue := some 5000000 }
     x.stopDue = some 5000000 ∧ x.stopRaw = true ∧
       ∀ f, consoleFor f = .a ∧ quiet.isFitted f = true → (quiet.fx f).run.isOpen = false ∧ (quiet.fx f).supply.live = false) ∧
    (consoleFor 1 = .a ∧ (withFx 1 runFx).isFitted 1 = true ∧ ((withFx 1 runFx).fx 1).run.isOpen = true) ∧
    (let x : Console := { stopLevel := true, stopDue := some 5000000 }; x.stopDue = some 5000000 ∧ x.stopRaw = false) ∧
    (let x : Console := { stopRaw := true, stopDue := some 5000000 }
     x.stopRaw ≠ false ∧ x.stopDue = some 5000000 ∧ 5000000 ≤ quiet.clock ∧
       ({ x with stopDue := some 5000001 } : Console).stopDue = some 5000001 ∧ quiet.clock < 5000001) ∧
    (let x : Console := { stopDue := some 5000000, stopAfter := some 5020000 }; (x.stopRaw != x.stopAfter.isSome) = true) := by
  decide +kernel

/-- An entry of fixture 3 shown before one of fixture 1. -/
def lampEntries : List Entry :=
  [{ id := 2, owner := 3, cls := .safety, text := [] }, { id := 4, owner := 1, cls := .normal .ack 9 7, text := [] }]

theorem witness_ConsoleStatusReports :
    (∀ c : Console, (sat { quiet with consoleA := c }).Listening) ∧ 2 ≤ (2 : Byte).toNat ∧ (0 : Byte).toNat = consoleCode .a ∧
    (1 : Byte).toNat = consoleCode .b ∧
    (let x := pressed (.normal .ack 9 7) .held .fail
     x.entries.length ≤ 8 ∧ x.entries[0]? = some { id := 4, owner := 1, cls := .normal .ack 9 7, text := [] }) ∧
    ({ text := List.replicate 40 0x20, id := 0, owner := 0, cls := .safety } : Entry).text.length ≤ 40 ∧
    (quiet.isFitted 3 = true ∧ ({ quiet with fitted := .two } : Part).isFitted 2 = false ∧ consoleFor 3 = .a ∧
      ((withFx 1 { readyFx with supply := { state := .tripped } }).fx 1).supply.state = .tripped ∧
      (quiet.fx 1).run.state = .none ∧ runFx.run.isOpen = true ∧ ∀ e ∈ ({} : Console).entries, e.owner ≠ 1) ∧
    ((∃ before e after, (pressed .safety .long .pass).entries = before ++ e :: after ∧ (∀ g ∈ before, g.id ≠ e.id) ∧
        (pressed .safety .long .pass).pass.press.bind (·.bound) = some e.id) ∧
      (∀ e ∈ ({ pressed .safety .held .pass with entries := [] } : Console).entries, e.id ≠ 4) ∧
      ({} : Console).pass.press = none ∧ ({ phase := .cancelled, bound := none, longTime := 2, downAt := 0 } : Press).bound = none) ∧
    ((∃ e rest, (pressed .safety .held .pass).entries = e :: rest ∧ e.owner = 1) ∧
      (∃ e rest, lampEntries = e :: rest ∧ e.owner ≠ 1 ∧ ∃ g ∈ rest, g.owner = 1)) ∧
    (let x := fun v : Verdict => (withFx 1 { run := { state := .ended, verdict := v } }).fx 1
     (x .marginal).supply.state ≠ .tripped ∧ (x .marginal).run.state = .ended ∧ (x .marginal).run.verdict = .marginal) :=
  ⟨fun _ => ⟨rfl, rfl, rfl, rfl, rfl⟩, by decide +kernel, by decide +kernel, by decide +kernel, by decide +kernel, by decide +kernel,
    by decide +kernel, ⟨⟨[], _, [], rfl, by decide, rfl⟩, by decide, rfl, rfl⟩, ⟨⟨_, _, rfl, rfl⟩, _, _, rfl, by decide, _, .head _, rfl⟩,
    by decide +kernel⟩

theorem witness_AnalogValuesLieInTheirSpan :
    ([0, 4095] : List Nat) ≠ [] ∧ (∀ c ∈ [0, 4095], c ≤ 4095) ∧ 2700 ≤ 3300 ∧ (-2000000 : Int) ≤ 2000000 ∧
    ([4095, 4095] : List Nat).length = [0, 4095].length ∧ [0, 4095].sum ≤ [4095, 4095].sum ∧
    (correct (mean16Of [4094, 4094]) 2700 = 65520 ∧ correct (mean16Of [0, 4095]) 2700 < 65520) := by decide +kernel

theorem witness_FieldAndTimingValuesAreExact :
    (0 < 16 ∧ 0 < 16000000 ∧ 15999984 ≤ 16000000) ∧ (([1, 2, 3, 4, 5, 6, 7, 8] : List Byte).length = 8 ∧ 1 ≤ 32 ∧ 32 ≤ 32 ∧ 32 + 32 ≤ 64) ∧
    (0 < 32767 ∧ halfAway (-2147483648) 1 + (-1) < -2147483648 ∧ 2147483647 < halfAway 2147483647 1 + 1 ∧
      halfAway 2147483647 1 + 0 ≤ 2147483647) := by decide +kernel

theorem witness_ClipsLimitsAndGuardBands :
    ((4095 : Nat) ∈ [4095, 0] ∧ (0 : Nat) ∈ [4095, 0]) ∧ ((4095 : Nat) ∈ [4095] ∧ (0 : Nat) ∉ [4095] ∧ (19999 : Int) < 20000) ∧
    ((4095 : Nat) ∉ [0] ∧ (0 : Nat) ∈ [0] ∧ (0 : Int) < 1) ∧ ((4095 : Nat) ∉ [1] ∧ (0 : Nat) ∉ [1]) ∧
    (∀ l u : Int, some (1000 : Int) = some l → some (1100 : Int) = some u → l ≤ u) ∧
    ((999 : Int) < 1000 ∧ (1100 : Int) < 1101 ∧ ¬ ((1000 : Int) < 1000) ∧ ¬ ((1100 : Int) < 1100)) ∧
    ((1050 : Int) - 1000 ≤ 1100 - 1050 ∧ (1100 : Int) - 1051 < 1051 - 1000) :=
  ⟨by decide, by decide, by decide, by decide, by rintro l u ⟨⟩ ⟨⟩; decide, by decide, by decide⟩

/-- A part with a reading on the LOW range at fixture 1, a prompt at fixture 2 and a lend pending. -/
def lively : Part :=
  { ((reading .low (some 2000) false).part.modFx 2 fun _ => { inflightFx (.prompt .ack 0 []) (.prompt 4) with log := [aResult] }) with
    lend := { matrix := .pending .request 100 }, pattern := [(0, 1)]
    consoleA := { entries := [{ id := 3, owner := 3, cls := .safety, text := [] }, { id := 4, owner := 2, cls := .normal .ack 9 7, text := [] }]
                  nextId := 5 } }

theorem lively_steps : ∃ t, Machine.step (sat lively) = .next t := by
  have h : (match Machine.step (sat lively) with | .refused _ => false | _ => true) = true := by decide +kernel
  cases e : Machine.step (sat lively) with
  | next t => exact ⟨t, rfl⟩
  | fault r => exact nomatch r
  | refused r => simp [e] at h

theorem witness_StepsKeepStoresLendsAndRanges :
    lively.StoreLaw ∧ lively.CapacityLaw ∧ lively.LendLaw ∧ lively.RangeLaw ∧
    ∃ t, Machine.step (sat lively) = .next t := by
  refine ⟨?_, ?_, ?_, fun f h => ?_, lively_steps⟩
  · unfold Part.StoreLaw; decide +kernel
  · unfold Part.CapacityLaw; decide +kernel
  · unfold Part.LendLaw; decide +kernel
  · by_cases e : f = 1
    · subst e; exact ⟨by decide +kernel, doing (.waitFor (.quiescent 500 3000) 0) (.quiescent none (some 2000) none), none, some 2000, none, by decide +kernel, rfl⟩
    · exact absurd h ((by decide +kernel : ∀ f : FixtureIx, f ≠ 1 → (lively.fx f).supply.range ≠ .low) f e)

theorem witness_StepsKeepTheRunLaws :
    lively.RunLaw ∧ lively.RackLaw ∧ lively.PortLaw ∧ ∃ t, Machine.step (sat lively) = .next t := by
  refine ⟨?_, ?_, ?_, lively_steps⟩
  · unfold Part.RunLaw; decide +kernel
  · unfold Part.RackLaw; decide +kernel
  · unfold Part.PortLaw; decide +kernel

theorem witness_StepsKeepTheInterlock : lively.InterlockLaw ∧ ∃ t, Machine.step (sat lively) = .next t := by
  refine ⟨?_, lively_steps⟩
  unfold Part.InterlockLaw; decide +kernel

theorem witness_StepsKeepThePromptAndVerdictLaws :
    lively.PromptLaw ∧ lively.VerdictLaw ∧ ∃ t, Machine.step (sat lively) = .next t := by
  refine ⟨fun k => ⟨?_, ?_, ?_, ?_, ?_, fun e he hn => ?_⟩, ?_, lively_steps⟩
  · cases k <;> decide +kernel
  · cases k <;> decide +kernel
  · cases k <;> decide +kernel
  · cases k <;> decide +kernel
  · cases k <;> decide +kernel
  · have h : ∀ e ∈ (lively.con k).entries, e.isSafety = false → e.owner = 2 ∧ e.id = 4 := by cases k <;> decide +kernel
    obtain ⟨h1, h2⟩ := h e he hn
    exact ⟨doing (.prompt .ack 0 []) (.prompt 4), by rw [h1]; decide +kernel, by rw [h2]; rfl⟩
  · unfold Part.VerdictLaw; decide +kernel

end Sys2Proof.Tests
end

section
/-! PROOFS. CLEAR_RUN (R15) and FIXTURE_STATUS (R16): the requests that name a fixture and act on its run record, or report it. -/

namespace Sys2Proof.Machine

open Sys2Proof

/-! ## Reading the fields of a list of bytes -/

@[simp] theorem byteAt_append_left {a b : List Byte} {i : Nat} (h : i < a.length) : byteAt (a ++ b) i = byteAt a i := by
  simp [byteAt, List.getElem?_append_left h]

@[simp] theorem byteAt_append_right {a b : List Byte} {i : Nat} (h : a.length ≤ i) :
    byteAt (a ++ b) i = byteAt b (i - a.length) := by
  simp [byteAt, List.getElem?_append_right h]

@[simp] theorem u16At_append_left {a b : List Byte} {i : Nat} (h : i + 1 < a.length) : u16At (a ++ b) i = u16At a i := by
  simp only [u16At, byteAt_append_left h, byteAt_append_left (Nat.lt_of_succ_lt h)]

@[simp] theorem u16At_append_right {a b : List Byte} {i : Nat} (h : a.length ≤ i) :
    u16At (a ++ b) i = u16At b (i - a.length) := by
  simp only [u16At, byteAt_append_right h, byteAt_append_right (show a.length ≤ i + 1 by omega), Nat.sub_add_comm h]

@[simp] theorem u32At_append_left {a b : List Byte} {i : Nat} (h : i + 3 < a.length) : u32At (a ++ b) i = u32At a i := by
  simp only [u32At, u16At_append_left h, u16At_append_left (show i + 1 < a.length by omega)]

@[simp] theorem u32At_append_right {a b : List Byte} {i : Nat} (h : a.length ≤ i) :
    u32At (a ++ b) i = u32At b (i - a.length) := by
  simp only [u32At, u16At_append_right h, u16At_append_right (show a.length ≤ i + 2 by omega), Nat.sub_add_comm h]

@[simp] theorem length_le8 (n : Nat) : (le8 n).length = 1 := by simp [le8]
@[simp] theorem length_le16 (n : Nat) : (le16 n).length = 2 := by simp [le16]
@[simp] theorem length_le32 (n : Nat) : (le32 n).length = 4 := by simp [le32]
@[simp] theorem length_flag (b : Bool) : (flag b).length = 1 := by simp [flag]
@[simp] theorem length_padTo (n : Nat) (fill : Byte) (l : List Byte) : (padTo n fill l).length = n := by
  simp [padTo]; omega

theorem byteAt_le8 (n : Nat) : byteAt (le8 n) 0 = n % 256 := by simp [byteAt, le8]

theorem byteAt_le8_of_lt {n : Nat} (h : n < 256) : byteAt (le8 n) 0 = n := by rw [byteAt_le8, Nat.mod_eq_of_lt h]

theorem u16At_le16 (n : Nat) : u16At (le16 n) 0 = n % 65536 := by
  simp only [u16At, byteAt, le16, List.getD_cons_zero, List.getD_cons_succ, BitVec.toNat_ofNat]
  omega

theorem u16At_le16_of_lt {n : Nat} (h : n < 65536) : u16At (le16 n) 0 = n := by rw [u16At_le16, Nat.mod_eq_of_lt h]

/-- A four-byte field of a 32-bit word reads back as the word. -/
@[simp] theorem u32At_le32 (v : BitVec 32) : u32At (le32 v.toNat) 0 = v.toNat := by
  have hv : v.toNat < 4294967296 := v.isLt
  rw [le32, u32At, u16At_append_left (by simp), u16At_append_right (by simp), u16At_le16, length_le16, Nat.zero_add, Nat.sub_self,
    u16At_le16]
  omega

@[simp] theorem byteAt_flag (b : Bool) : byteAt (flag b) 0 = flagNat b := by cases b <;> rfl

/-- A list no longer than its field is the field's first part. -/
theorem take_padTo_append {n : Nat} {l : List Byte} (h : l.length ≤ n) (fill : Byte) (r : List Byte) :
    (padTo n fill l ++ r).take l.length = l := by
  rw [padTo, List.take_of_length_le h, List.append_assoc, List.take_left]

/-! ## Codes fit in a byte -/

@[simp] theorem RunState.code_lt (c : RunState) : c.code < 256 := by cases c <;> decide
@[simp] theorem Policy.code_lt (c : Policy) : c.code < 256 := by cases c <;> decide
@[simp] theorem BusRate.code_lt (c : BusRate) : c.code < 256 := by cases c <;> decide
@[simp] theorem Verdict.code_lt (c : Verdict) : c.code < 256 := by cases c <;> decide
@[simp] theorem HaltReason.code_lt (c : HaltReason) : c.code < 256 := by cases c <;> decide
@[simp] theorem StepKind.code_lt (c : StepKind) : c.code < 256 := by cases c <;> decide
@[simp] theorem SupplyState.code_lt (c : SupplyState) : c.code < 256 := by cases c <;> decide
@[simp] theorem TripReason.code_lt (c : TripReason) : c.code < 256 := by cases c <;> decide
@[simp] theorem Range.code_lt (c : Range) : c.code < 256 := by cases c <;> decide
@[simp] theorem mechanicalCode_lt (presence lid : Bool) : mechanicalCode presence lid < 256 := by cases presence <;> cases lid <;> decide

/-! ## Requests that name a fixture -/

theorem Part.atFixture_fitted {p : Part} {f : FixtureIx} (hf : p.isFitted f = true) {payload : List Byte} {i : Nat}
    (hb : byteAt payload i = f.val) (h : FixtureIx → Part → Answer) : p.atFixture payload i h = h f p := by
  simp [Part.atFixture, hb, Part.namedFixture_val, hf]

theorem Part.atFixture_unfitted {p : Part} {f : FixtureIx} (hf : p.isFitted f = false) {payload : List Byte} {i : Nat}
    (hb : byteAt payload i = f.val) (h : FixtureIx → Part → Answer) : p.atFixture payload i h = p.refuse .notFitted := by
  simp [Part.atFixture, hb, Part.namedFixture_val, hf]

/-- A request whose payload is a fitted fixture's number reaches its handler. -/
theorem Part.ofFixture_fitted {p : Part} {f : FixtureIx} (hf : p.isFitted f = true) (h : FixtureIx → Part → Answer) :
    p.ofLength 1 [BitVec.ofNat 8 f.val] (Part.atFixture [BitVec.ofNat 8 f.val] 0 h) = h f p :=
  (if_pos rfl).trans (Part.atFixture_fitted hf (byteAt_fixture f []) h)

theorem Part.ofFixture_unfitted {p : Part} {f : FixtureIx} (hf : p.isFitted f = false) (h : FixtureIx → Part → Answer) :
    p.ofLength 1 [BitVec.ofNat 8 f.val] (Part.atFixture [BitVec.ofNat 8 f.val] 0 h) = p.refuse .notFitted :=
  (if_pos rfl).trans (Part.atFixture_unfitted hf (byteAt_fixture f []) h)

theorem Part.accept_eq (p : Part) (data : List Byte) : p.accept data = (p, 0x00 :: data) := rfl

/-! ## CLEAR_RUN (R15) -/

theorem Part.clearRun_unfitted {p : Part} {f : FixtureIx} (hf : p.isFitted f = false) :
    p.clearRun [BitVec.ofNat 8 f.val] = p.refuse .notFitted := Part.ofFixture_unfitted hf _

theorem Part.clearRun_notEnded {p : Part} {f : FixtureIx} (hf : p.isFitted f = true) (h : (p.fx f).run.state ≠ .ended) :
    p.clearRun [BitVec.ofNat 8 f.val] = p.refuse .wrongState := (Part.ofFixture_fitted hf _).trans (if_neg h)

theorem Part.clearRun_ended {p : Part} {f : FixtureIx} (hf : p.isFitted f = true) (h : (p.fx f).run.state = .ended) :
    p.clearRun [BitVec.ofNat 8 f.val] =
      (p.modFx f fun x => { x with log := [], run := { x.run with state := .none } }).accept (le8 (p.fx f).log.length) :=
  (Part.ofFixture_fitted hf _).trans (if_pos h)

/-- A latched trip at a fixture without a run refuses OPEN_RUN, if the STOP switch does not come first (R7, orders 3 to 5). -/
theorem Part.openRefusal_tripped {p : Part} {f : FixtureIx} (hr : (p.fx f).run.state = .none)
    (hstop : (p.con (consoleFor f)).stopLevel = false) (ht : (p.fx f).supply.state = .tripped) :
    p.openRefusal f = some .faultLatched := by
  simp [Part.openRefusal, hr, hstop, ht]

theorem policyOf_isSome {k : Nat} (h : k ≤ 2) : (policyOf k).isSome = true := by
  interval_cases k <;> rfl

theorem busRateOf_isSome {k : Nat} (h : k ≤ 2) : (busRateOf k).isSome = true := by
  interval_cases k <;> rfl

/-- Fields of OPEN_RUN within their bounds are taken (R7, check 2). -/
theorem parseOpenRun_eq_some {payload : List Byte} (hpolicy : byteAt payload 1 ≤ 2) (hpriority : byteAt payload 2 ≤ 3)
    (hrate : byteAt payload 3 ≤ 2) (hlabel : byteAt payload 8 ≤ 24) (now : BitVec 32) :
    ∃ u, parseOpenRun payload now = some u := by
  obtain ⟨policy, hp⟩ := Option.isSome_iff_exists.mp (policyOf_isSome hpolicy)
  obtain ⟨rate, hr⟩ := Option.isSome_iff_exists.mp (busRateOf_isSome hrate)
  have hl : finOf 4 (byteAt payload 2) = some ⟨byteAt payload 2, by omega⟩ := dif_pos (by omega)
  simp [parseOpenRun, hp, hr, hl, need, hlabel]

/-- OPEN_RUN at a fitted fixture, its fields in bounds, is refused with the first condition that fails (R7). -/
theorem Part.openRun_refused {p : Part} {f : FixtureIx} {payload : List Byte} {u : Run} {c : ResultCode}
    (hf : p.isFitted f = true) (hn : payload.length = 33) (hb : byteAt payload 0 = f.val)
    (hu : parseOpenRun payload p.uptime = some u) (hc : p.openRefusal f = some c) : p.openRun payload = p.refuse c := by
  simp only [Part.openRun, Part.ofLength, hn, if_true, Part.atFixture_fitted hf hb, hu, hc]

/-- Settles O20: the three answers of CLEAR_RUN, and OPEN_RUN's answer at a latched trip. -/
theorem clearRunFreesTheFixture : Obligations.ClearRunFreesTheFixture := by
  refine ⟨fun s tag f hl => ⟨fun hf => ?unfitted, fun hf hne => ?notEnded, fun hf he => ?ended⟩,
    fun s tag payload f hl hf hr ht hstop hn hb hpolicy hpriority hrate hlabel => ?tripped⟩
  case unfitted => exact request_refused hl (by decide) (Part.clearRun_unfitted (p := s.part.asked 0x13 tag) hf)
  case notEnded => exact request_refused hl (by decide) (Part.clearRun_notEnded (p := s.part.asked 0x13 tag) hf hne)
  case ended =>
    exact request_answered hl (by decide) _ (Part.clearRun_ended (p := s.part.asked 0x13 tag) hf he) hl.free hl.noRequest hl.noReply
  case tripped =>
    obtain ⟨u, hu⟩ := parseOpenRun_eq_some hpolicy hpriority hrate hlabel s.part.uptime
    have hc : (s.part.asked 0x10 tag).openRefusal f = some .faultLatched :=
      Part.openRefusal_tripped hr (by simpa using hstop) ht
    exact request_refused hl (by decide) (Part.openRun_refused (p := s.part.asked 0x10 tag) hf hn hb hu hc)

/-! ## FIXTURE_STATUS (R16) -/

theorem Part.fixtureStatus_unfitted {p : Part} {f : FixtureIx} (hf : p.isFitted f = false) :
    p.fixtureStatus [BitVec.ofNat 8 f.val] = p.refuse .notFitted := Part.ofFixture_unfitted hf _

theorem Part.fixtureStatus_fitted {p : Part} {f : FixtureIx} (hf : p.isFitted f = true) :
    p.fixtureStatus [BitVec.ofNat 8 f.val] = p.accept (p.statusOf f) := Part.ofFixture_fitted hf _

theorem Part.asked_lidLock (p : Part) (a b : Byte) (f : FixtureIx) : (p.asked a b).lidLock f = p.lidLock f := rfl

theorem Part.asked_reportStep (p : Part) (a b : Byte) (i : Option InFlight) : (p.asked a b).reportStep i = p.reportStep i := by
  cases i <;> rfl

/-- The request itself is not seen in the status. -/
theorem Part.asked_statusOf (p : Part) (a b : Byte) (f : FixtureIx) : (p.asked a b).statusOf f = p.statusOf f := by
  simp only [Part.statusOf, Part.asked_fx, Part.asked_lidLock, Part.asked_reportStep]

theorem Part.fixtureStatus_asked {p : Part} {f : FixtureIx} (hf : p.isFitted f = true) (a b : Byte) :
    (p.asked a b).fixtureStatus [BitVec.ofNat 8 f.val] = (p.asked a b, 0x00 :: p.statusOf f) := by
  rw [Part.fixtureStatus_fitted (p := p.asked a b) hf, Part.asked_statusOf, Part.accept_eq]

/-- The switches, the mechanical state, sense-ready and the lid lock, at offset 0 of a status. -/
def Part.senseReport (p : Part) (f : FixtureIx) : List Byte :=
  let s := (p.fx f).sense
  flag s.presence ++ flag s.lid ++ le8 (mechanicalCode s.presence s.lid) ++ flag s.ready ++ flag (p.lidLock f)

/-- The fills of the queue and the log, and whether a log slot is reserved, at offset 51 of a status. -/
def Fixture.queueReport (x : Fixture) : List Byte :=
  le8 x.queue.length ++ le8 (32 - x.queue.length) ++ le8 x.log.length ++ flag x.inflight.isSome

/-- The stall, the supply and the lines, at offset 63 of a status. -/
def Fixture.supplyReport (x : Fixture) : List Byte :=
  flag x.stalled ++ le8 x.supply.state.code ++ le8 x.supply.tripReason.code ++ flag x.supply.residual ++
    le8 x.supply.range.code ++ [x.outs.readLevels]

/-- A status in its five blocks. -/
theorem Part.statusOf_eq (p : Part) (f : FixtureIx) :
    p.statusOf f = p.senseReport f ++ ((p.fx f).run.report ++ ((p.fx f).queueReport ++
      (p.reportStep (p.fx f).inflight ++ (p.fx f).supplyReport))) := by
  simp only [Part.statusOf, Part.senseReport, Fixture.queueReport, Fixture.supplyReport, List.append_assoc]

@[simp] theorem Part.length_senseReport (p : Part) (f : FixtureIx) : (p.senseReport f).length = 5 := by
  simp [Part.senseReport]
@[simp] theorem Run.length_report (u : Run) : u.report.length = 46 := by simp [Run.report]
@[simp] theorem Fixture.length_queueReport (x : Fixture) : x.queueReport.length = 4 := by simp [Fixture.queueReport]
@[simp] theorem Part.length_reportStep (p : Part) (i : Option InFlight) : (p.reportStep i).length = 8 := by
  cases i <;> simp [Part.reportStep]
@[simp] theorem Fixture.length_supplyReport (x : Fixture) : x.supplyReport.length = 6 := by simp [Fixture.supplyReport]

theorem Part.length_statusOf (p : Part) (f : FixtureIx) : (p.statusOf f).length = 69 := by
  simp [Part.statusOf_eq]

/-- The switches with what follows from them, at offsets 0 to 4. -/
theorem Part.statusOf_sense (p : Part) (f : FixtureIx) :
    byteAt (p.statusOf f) 0 = flagNat (p.fx f).sense.presence ∧ byteAt (p.statusOf f) 1 = flagNat (p.fx f).sense.lid ∧
    byteAt (p.statusOf f) 2 = mechanicalCode (p.fx f).sense.presence (p.fx f).sense.lid ∧
    byteAt (p.statusOf f) 3 = flagNat (p.fx f).sense.ready ∧ byteAt (p.statusOf f) 4 = flagNat (p.lidLock f) := by
  simp [Part.statusOf_eq, Part.senseReport, byteAt_le8_of_lt]

/-- The run record without its label and counts, from offset 5 on. -/
theorem Part.statusOf_run (p : Part) (f : FixtureIx) :
    let u := (p.fx f).run
    byteAt (p.statusOf f) 5 = u.state.code ∧ u32At (p.statusOf f) 6 = u.runId.toNat ∧ byteAt (p.statusOf f) 35 = u.policy.code ∧
    byteAt (p.statusOf f) 36 = u.priority.val ∧ byteAt (p.statusOf f) 37 = u.busRate.code ∧
    byteAt (p.statusOf f) 38 = u.verdict.code ∧ byteAt (p.statusOf f) 39 = u.haltReason.code ∧
    byteAt (p.statusOf f) 44 = flagNat u.skipping ∧ u32At (p.statusOf f) 45 = u.openedAt.toNat := by
  have hp : (p.fx f).run.priority.val < 256 := by omega
  simp [Part.statusOf_eq, Run.report, byteAt_le8_of_lt, hp]

/-- The counts of the run record keep their lowest 16 bits. -/
theorem Part.statusOf_counts (p : Part) (f : FixtureIx) :
    let u := (p.fx f).run
    u16At (p.statusOf f) 40 = u.stepsDone % 65536 ∧ u16At (p.statusOf f) 42 = u.skipped % 65536 ∧
    u16At (p.statusOf f) 49 = u.seq % 65536 := by
  simp [Part.statusOf_eq, Run.report, u16At_le16]

/-- A label of at most 24 characters is reported whole, behind its length. -/
theorem Part.statusOf_label {p : Part} {f : FixtureIx} (h : (p.fx f).run.label.length ≤ 24) :
    byteAt (p.statusOf f) 10 = (p.fx f).run.label.length ∧
    ((p.statusOf f).drop 11).take (p.fx f).run.label.length = (p.fx f).run.label := by
  have hl : (p.fx f).run.label.length < 256 := by omega
  simp [Part.statusOf_eq, Run.report, byteAt_le8_of_lt, hl, List.drop_append, List.drop_of_length_le, take_padTo_append h]

/-- The fills of the queue and the log, at offsets 51 to 53. -/
theorem Part.statusOf_fills (p : Part) (f : FixtureIx) :
    byteAt (p.statusOf f) 51 = (p.fx f).queue.length % 256 ∧ byteAt (p.statusOf f) 52 = 32 - (p.fx f).queue.length ∧
    byteAt (p.statusOf f) 53 = (p.fx f).log.length % 256 := by
  have hfree : (32 - (p.fx f).queue.length) % 256 = 32 - (p.fx f).queue.length := by omega
  simp [Part.statusOf_eq, Fixture.queueReport, byteAt_le8, hfree]

theorem Part.byteAt_reportStep (p : Part) (i : Option InFlight) : byteAt (p.reportStep i) 0 = flagNat i.isSome := by
  cases i <;> rfl

/-- Whether a log slot is reserved, and whether a step is in flight: each is so while the other is (section 1.2). -/
theorem Part.statusOf_inflight (p : Part) (f : FixtureIx) :
    byteAt (p.statusOf f) 54 = flagNat (p.fx f).inflight.isSome ∧ byteAt (p.statusOf f) 55 = flagNat (p.fx f).inflight.isSome := by
  simp [Part.statusOf_eq, Fixture.queueReport, Part.byteAt_reportStep]

/-- The step in flight, at offsets 56 to 62. -/
theorem Part.statusOf_step {p : Part} {f : FixtureIx} {i : InFlight} (h : (p.fx f).inflight = some i) :
    u16At (p.statusOf f) 56 = i.step.tag.toNat ∧ byteAt (p.statusOf f) 58 = i.step.body.kind.code ∧
    u32At (p.statusOf f) 59 = (p.msSince i.startedAt).toNat := by
  have ht : i.step.tag.toNat < 65536 := i.step.tag.isLt
  simp [Part.statusOf_eq, h, Part.reportStep, byteAt_le8_of_lt, u16At_le16_of_lt, ht]

/-- A bit of the read levels is the read level of its line. -/
@[simp] theorem Outputs.testBit_readLevels (o : Outputs) (l : LineIx) : o.readLevels.toNat.testBit l.val = o.reads l := by
  rw [BitVec.testBit_toNat, Outputs.readLevels, Outputs.reads]
  cases h : o.outEnable.getLsbD l.val <;>
    simp only [BitVec.getLsbD_and, BitVec.getLsbD_or, BitVec.getLsbD_not, h, l.isLt] <;> simp

/-- The stall, the supply and the lines, at offsets 63 to 68. -/
theorem Part.statusOf_supply (p : Part) (f : FixtureIx) :
    let x := p.fx f
    byteAt (p.statusOf f) 63 = flagNat x.stalled ∧ byteAt (p.statusOf f) 64 = x.supply.state.code ∧
    byteAt (p.statusOf f) 65 = x.supply.tripReason.code ∧ byteAt (p.statusOf f) 66 = flagNat x.supply.residual ∧
    byteAt (p.statusOf f) 67 = x.supply.range.code ∧ ∀ l : LineIx, (byteAt (p.statusOf f) 68).testBit l.val = x.outs.reads l := by
  have hlines : byteAt [(p.fx f).outs.readLevels] 0 = (p.fx f).outs.readLevels.toNat := rfl
  simp [Part.statusOf_eq, Fixture.supplyReport, byteAt_le8_of_lt, hlines]

/-- Settles O21: the refusal, and the bytes of the report by their offsets (section 11.7). -/
theorem fixtureStatusReports : Obligations.FixtureStatusReports := by
  refine fun s tag f hl => ⟨fun hf => ?unfitted, fun hf => ⟨s.part.statusOf f, ?reply, Part.length_statusOf _ _, ?fields⟩⟩
  case unfitted => exact request_refused hl (by decide) (Part.fixtureStatus_unfitted (p := s.part.asked 0x14 tag) hf)
  case reply => exact request_refused hl (by decide) (Part.fixtureStatus_asked hf 0x14 tag)
  case fields =>
    obtain ⟨presence, lid, mechanical, ready, lock⟩ := s.part.statusOf_sense f
    obtain ⟨state, runId, policy, priority, busRate, verdict, haltReason, skipping, openedAt⟩ := s.part.statusOf_run f
    obtain ⟨stepsDone, skipped, seq⟩ := s.part.statusOf_counts f
    obtain ⟨queued, free, logged⟩ := s.part.statusOf_fills f
    obtain ⟨reserved, inflight⟩ := s.part.statusOf_inflight f
    exact ⟨presence, lid, mechanical, ready, lock, state, runId, Part.statusOf_label, policy, priority, busRate, verdict, haltReason,
      fun h => stepsDone.trans (by omega), fun h => skipped.trans (by omega), skipping, openedAt, fun h => seq.trans (by omega),
      fun h => ⟨queued.trans (by omega), free⟩, fun h => logged.trans (by omega), reserved, inflight,
      fun _ => Part.statusOf_step, s.part.statusOf_supply f⟩

end Sys2Proof.Machine
end

section
/-! PROOFS. Pattern memory (section 4.3): when a stimulus record is well-formed (R89), what READ_PATTERN answers (R92), and
WRITE_PATTERN's checks in their order with what an accepted one stores (R90, R91). -/

namespace Sys2Proof.Machine

open Sys2Proof

/-! ## Well-formed records (R89) -/

theorem boolOf_eq_some_iff {k : Nat} {b : Bool} : boolOf k = some b ↔ k = flagNat b := by
  unfold boolOf
  split
  · next h => cases b <;> simp [h, flagNat]
  · cases b <;> simp_all [flagNat]

theorem exists_boolOf_eq_some_iff {k : Nat} : (∃ b, boolOf k = some b) ↔ k ≤ 1 := by
  simp only [boolOf_eq_some_iff, flagNat, Bool.exists_bool, Bool.false_eq_true, if_false, if_true]
  omega

theorem boolOf_isSome_iff {k : Nat} : (boolOf k).isSome = true ↔ k ≤ 1 :=
  Option.isSome_iff_exists.trans exists_boolOf_eq_some_iff

theorem need_eq_some_iff {b : Bool} {u : Unit} : need b = some u ↔ b = true := by
  cases b <;> simp [need]

/-- A parse goes through when its first step gives a value with which the rest does. -/
theorem isSome_bind_iff {α β : Type} {x : Option α} {g : α → Option β} :
    (x.bind g).isSome = true ↔ ∃ a, x = some a ∧ (g a).isSome = true := by
  cases x <;> simp

theorem parsePwmCfg_isSome_iff (r : List Byte) :
    (parsePwmCfg r).isSome = true ↔ byteAt r 3 ≤ 1 ∧ byteAt r 4 ∈ [1, 2, 4, 8] ∧ byteAt r 5 ≤ 1 ∧ byteAt r 6 ≤ 1 := by
  simp only [parsePwmCfg, Option.bind_eq_bind, Option.pure_def, isSome_bind_iff, need_eq_some_iff, exists_and_right,
    exists_boolOf_eq_some_iff, Option.isSome_some, and_true, exists_const, List.contains_iff_mem]

/-- The extended flag in the high half of offset 7 chooses the identifier's bound (section 11.3). -/
theorem parseCanTx_isSome_iff (r : List Byte) :
    (parseCanTx r).isSome = true ↔ byteAt r 7 % 16 ≤ 8 ∧ byteAt r 7 / 16 ≤ 1 ∧
      (byteAt r 7 / 16 = 0 → u32At r 3 ≤ 0x7FF) ∧ (byteAt r 7 / 16 = 1 → u32At r 3 ≤ 0x1FFFFFFF) := by
  generalize hflag : byteAt r 7 / 16 = flagByte
  simp only [parseCanTx, hflag, Option.bind_eq_bind, Option.pure_def, isSome_bind_iff, need_eq_some_iff, boolOf_eq_some_iff,
    flagNat, Bool.exists_bool, Bool.false_eq_true, if_false, if_true, Option.isSome_some, and_true, exists_const, decide_eq_true_eq]
  omega

/-- The fields each target code allows; codes above 12 name no target. -/
theorem recordOk_iff (r : List Byte) :
    recordOk r = true ↔ match byteAt r 0 with
      | 3 => byteAt r 3 ≤ 1 ∧ byteAt r 4 ∈ [1, 2, 4, 8] ∧ byteAt r 5 ≤ 1 ∧ byteAt r 6 ≤ 1
      | 6 => byteAt r 3 ≤ 1
      | 9 => byteAt r 7 % 16 ≤ 8 ∧ byteAt r 7 / 16 ≤ 1 ∧
          (byteAt r 7 / 16 = 0 → u32At r 3 ≤ 0x7FF) ∧ (byteAt r 7 / 16 = 1 → u32At r 3 ≤ 0x1FFFFFFF)
      | 10 => byteAt r 3 ≤ 1
      | code => code ≤ 12 := by
  unfold recordOk parseRecord
  match byteAt r 0 with
  | 3 => exact parsePwmCfg_isSome_iff r
  | 6 | 10 => exact Option.isSome_map.symm ▸ boolOf_isSome_iff
  | 9 => exact parseCanTx_isSome_iff r
  | 0 | 1 | 2 | 4 | 5 | 7 | 8 | 11 | 12 => simp
  | code + 13 => simp

/-! ## The records of a payload -/

theorem length_flatten_of_length_eq {size : Nat} {records : List (List Byte)} (h : ∀ r ∈ records, r.length = size) :
    records.flatten.length = size * records.length := by
  rw [List.length_flatten, List.sum_eq_card_nsmul _ size (by simpa using h), List.length_map, smul_eq_mul, Nat.mul_comm]

/-- Cutting into pieces undoes joining records of that size. -/
theorem pieces_flatten {size : Nat} {records : List (List Byte)} (h : ∀ r ∈ records, r.length = size) :
    pieces size records.length records.flatten = records := by
  induction records with
  | nil => rfl
  | cons r rest ih =>
    obtain ⟨hr, hrest⟩ := List.forall_mem_cons.mp h
    rw [List.flatten_cons, List.length_cons, pieces, List.take_left' hr, List.drop_left' hr, ih hrest]

/-- With every record well-formed the check of a payload gives the records themselves. -/
theorem parseAll_goodRecord_ok {records : List (List Byte)} (h : ∀ r ∈ records, recordOk r = true) (i : Nat) :
    parseAll goodRecord i records = .ok records := by
  induction records generalizing i with
  | nil => rfl
  | cons r rest ih =>
    obtain ⟨hr, hrest⟩ := List.forall_mem_cons.mp h
    simp [parseAll, goodRecord, hr, ih hrest]

/-- The check stops at the first record that is not well-formed, with its index. -/
theorem parseAll_goodRecord_error {before after : List (List Byte)} {bad : List Byte}
    (h : ∀ r ∈ before, recordOk r = true) (hbad : recordOk bad = false) (i : Nat) :
    parseAll goodRecord i (before ++ bad :: after) = .error (i + before.length) := by
  induction before generalizing i with
  | nil => simp [parseAll, goodRecord, hbad]
  | cons r rest ih =>
    obtain ⟨hr, hrest⟩ := List.forall_mem_cons.mp h
    simp [parseAll, goodRecord, hr, ih hrest]
    omega

/-! ## The bank in play (R90, R91) -/

theorem Channel.protectsAny_eq_true_iff {ch : Channel} {first n : Nat} :
    ch.protectsAny first n = true ↔ ∃ start k, ch.inPlay = some (start, k) ∧ start < first + n ∧ first < start + k := by
  unfold Channel.protectsAny
  cases ch.inPlay with
  | none => simp
  | some bank => simp [Prod.ext_iff, and_comm]

theorem Channel.protectsAny_eq_false {ch : Channel} {first n : Nat}
    (h : ∀ start k, ch.inPlay = some (start, k) → first + n ≤ start ∨ start + k ≤ first) : ch.protectsAny first n = false := by
  rw [Bool.eq_false_iff, Ne, Channel.protectsAny_eq_true_iff]
  rintro ⟨start, k, hplay, hlow, hhigh⟩
  have := h start k hplay
  omega

theorem allChannels_eq_finRange : allChannels = List.finRange 32 := by decide

theorem mem_allChannels (c : ChannelIx) : c ∈ allChannels := allChannels_eq_finRange ▸ List.mem_finRange c

theorem allChannels_pairwise_lt : allChannels.Pairwise (· < ·) := allChannels_eq_finRange ▸ List.pairwise_lt_finRange 32

/-- No channel is named when none plays from the slots. -/
theorem Part.protector_eq_none {p : Part} {first n : Nat} (h : ∀ c, (p.ch c).protectsAny first n = false) :
    p.protector first n = none :=
  List.find?_eq_none.mpr fun c _ => by simp [h c]

/-- The lowest channel that plays from the slots is the one named. -/
theorem Part.protector_eq_some {p : Part} {first n : Nat} {c : ChannelIx} (hc : (p.ch c).protectsAny first n = true)
    (hlower : ∀ d, d < c → (p.ch d).protectsAny first n = false) : p.protector first n = some c := by
  obtain ⟨lower, upper, hsplit⟩ := List.append_of_mem (mem_allChannels c)
  have hsorted := allChannels_pairwise_lt
  rw [hsplit, List.pairwise_append] at hsorted
  obtain ⟨-, -, hlt⟩ := hsorted
  exact List.find?_eq_some_iff_append.mpr
    ⟨hc, lower, upper, hsplit, fun d hd => by simp [hlower d (hlt d hd c List.mem_cons_self)]⟩

/-! ## READ_PATTERN (R92) -/

/-- `n` consecutive bytes from an address. -/
def Pattern.bytes (m : List Host.Cell) (a n : Nat) : List Byte := (List.range n).map fun k => Pattern.read m (a + k)

@[simp] theorem Pattern.length_bytes (m : List Host.Cell) (a n : Nat) : (Pattern.bytes m a n).length = n := by
  simp [Pattern.bytes]

theorem Pattern.getD_bytes (m : List Host.Cell) (a : Nat) {n k : Nat} (h : k < n) :
    (Pattern.bytes m a n).getD k 0 = Pattern.read m (a + k) := by
  rw [List.getD_eq_getElem _ _ (by simpa using h)]
  simp [Pattern.bytes]

theorem Pattern.bytes_add (m : List Host.Cell) (a n k : Nat) :
    Pattern.bytes m a (n + k) = Pattern.bytes m a n ++ Pattern.bytes m (a + n) k := by
  simp [Pattern.bytes, List.range_add, Nat.add_assoc]

/-- Consecutive slots are consecutive bytes. -/
theorem Pattern.flatMap_slot (m : List Host.Cell) (first n : Nat) :
    ((List.range n).flatMap fun k => Pattern.slot m (first + k)) = Pattern.bytes m (16 * first) (16 * n) := by
  induction n with
  | zero => rfl
  | succ n ih =>
    rw [List.range_succ, List.flatMap_append, ih, List.flatMap_singleton, Nat.mul_succ, Pattern.bytes_add, ← Nat.mul_add]
    rfl

section
variable {p : Part} {payload : List Byte} (hlen : payload.length = 3)
include hlen

theorem Part.readPattern_refused (h : byteAt payload 2 < 1 ∨ 64 < byteAt payload 2 ∨ 16383 < u16At payload 0) :
    p.readPattern payload = p.refuse .badField :=
  (if_pos hlen).trans (if_pos h)

theorem Part.readPattern_accepted (h : ¬ (byteAt payload 2 < 1 ∨ 64 < byteAt payload 2 ∨ 16383 < u16At payload 0)) :
    let n := min (byteAt payload 2) (16384 - u16At payload 0)
    p.readPattern payload = p.accept (le8 n ++ Pattern.bytes p.pattern (16 * u16At payload 0) (16 * n)) := by
  intro n
  rw [← Pattern.flatMap_slot]
  exact (if_pos hlen).trans (if_neg h)

end

/-! ## WRITE_PATTERN (R90) -/

/-- A count of 1 to 64, and as many records of 16 bytes (R90, check 1). -/
structure PatternSized (payload : List Byte) : Prop where
  count_pos : 1 ≤ byteAt payload 2
  count_le : byteAt payload 2 ≤ 64
  length : payload.length = 3 + 16 * byteAt payload 2

theorem Part.writePattern_badLength {p : Part} {payload : List Byte} (h : ¬ PatternSized payload) :
    p.writePattern payload = p.refuse .badLength := by
  refine if_pos ?_
  by_contra hc
  exact h ⟨by omega, by omega, by omega⟩

section
variable {p : Part} {payload : List Byte} (hsize : PatternSized payload)
include hsize

/-- The length check passes. -/
theorem PatternSized.not_badLength :
    ¬ (payload.length < 3 ∨ byteAt payload 2 < 1 ∨ 64 < byteAt payload 2 ∨ payload.length ≠ 3 + 16 * byteAt payload 2) := by
  obtain ⟨hpos, hle, hlen⟩ := hsize
  omega

theorem Part.writePattern_outside (h : 16384 < u16At payload 0 + byteAt payload 2) :
    p.writePattern payload = p.refuse .badField :=
  (if_neg hsize.not_badLength).trans (if_pos (by omega))

variable (hin : u16At payload 0 + byteAt payload 2 ≤ 16384)
include hin

/-- The range check passes: the first slot and the last lie within the memory. -/
theorem PatternSized.not_outside : ¬ (16383 < u16At payload 0 ∨ 16383 < u16At payload 0 + byteAt payload 2 - 1) := by
  have := hsize.count_pos
  omega

theorem Part.writePattern_badRecord {k : Nat}
    (h : parseAll goodRecord 0 (pieces 16 (byteAt payload 2) (payload.drop 3)) = .error k) :
    p.writePattern payload = p.refuse .badField (le8 k) := by
  simp only [Part.writePattern, hsize.not_badLength, hsize.not_outside hin, if_false, h]

variable {records : List (List Byte)}
  (hgood : parseAll goodRecord 0 (pieces 16 (byteAt payload 2) (payload.drop 3)) = .ok records)
include hgood

theorem Part.writePattern_inUse {c : ChannelIx} (h : p.protector (u16At payload 0) (byteAt payload 2) = some c) :
    p.writePattern payload = p.refuse .inUse (le8 c.val) := by
  simp only [Part.writePattern, hsize.not_badLength, hsize.not_outside hin, if_false, hgood, h]

theorem Part.writePattern_accepted (h : p.protector (u16At payload 0) (byteAt payload 2) = none) :
    p.writePattern payload =
      { p with pattern := Pattern.writeAll p.pattern (16 * u16At payload 0) (payload.drop 3) }.accept [] := by
  simp only [Part.writePattern, hsize.not_badLength, hsize.not_outside hin, if_false, hgood, h]

end

theorem patternSized_records {low high count : Byte} {records : List (List Byte)} (h16 : ∀ r ∈ records, r.length = 16)
    (h1 : 1 ≤ count.toNat) (h64 : count.toNat ≤ 64) (hn : records.length = count.toNat) :
    PatternSized ([low, high, count] ++ records.flatten) where
  count_pos := h1
  count_le := h64
  length := by
    rw [List.length_append, length_flatten_of_length_eq h16, hn]
    rfl

theorem not_patternSized {low high count : Byte} {data : List Byte}
    (h : count.toNat < 1 ∨ 64 < count.toNat ∨ data.length ≠ 16 * count.toNat) :
    ¬ PatternSized ([low, high, count] ++ data) := by
  rintro ⟨hpos, hle, hlen⟩
  change 1 ≤ count.toNat at hpos
  change count.toNat ≤ 64 at hle
  change data.length + 1 + 1 + 1 = 3 + 16 * count.toNat at hlen
  omega

/-- What pattern memory reads after the records are written from slot `first`: exactly their slots have changed (R91). -/
theorem Pattern.read_writeAll_records {m : List Host.Cell} {first n : Nat} {records : List (List Byte)}
    (h16 : ∀ r ∈ records, r.length = 16) (hn : records.length = n) (hin : first + n ≤ 16384) (hm : Pattern.wf m = true) :
    Pattern.wf (Pattern.writeAll m (16 * first) records.flatten) = true ∧
    ∀ a, Pattern.read (Pattern.writeAll m (16 * first) records.flatten) a =
      if 16 * first ≤ a ∧ a < 16 * (first + n) then records.flatten.getD (a - 16 * first) 0 else Pattern.read m a := by
  have hlen : records.flatten.length = 16 * n := hn ▸ length_flatten_of_length_eq h16
  have hfits : 16 * first + records.flatten.length ≤ patternBytes := by
    rw [hlen, patternBytes]
    omega
  refine ⟨Pattern.writeAll_wf hfits hm, fun a => ?_⟩
  rw [Pattern.read_writeAll hfits hm, hlen, Nat.mul_add]

/-- Settles O36: the refusals in the order of the checks, the slots written and read, and R89's fields of a record. -/
theorem patternMemoryReadsWhatWasWritten : Obligations.PatternMemoryReadsWhatWasWritten := by
  refine ⟨fun s tag low high count hl => ?_, recordOk_iff⟩
  intro first n
  refine ⟨fun h => ?readRefused, fun h1 h64 hfirst => ⟨Pattern.bytes s.part.pattern (16 * first) (16 * min n (16384 - first)),
    ?readAccepted, Pattern.length_bytes _ _ _, fun k hk => Pattern.getD_bytes _ _ (by simpa using hk)⟩,
    fun data h => ?badLength, fun records h16 => ⟨fun h1 h64 hn hout => ?outside,
    fun h1 h64 hn hin before bad after hrecords hbefore hbad => ?badRecord, fun h1 h64 hn hin hok =>
    ⟨fun c start k hplay hlow hhigh hlower => ?inUse, fun hfree hwf =>
      ⟨Pattern.writeAll s.part.pattern (16 * first) records.flatten, ?accepted, Pattern.read_writeAll_records h16 hn hin hwf⟩⟩⟩⟩
  case readRefused => exact request_refused hl (by decide) (Part.readPattern_refused (p := s.part.asked 0x35 tag) rfl h)
  case readAccepted =>
    have hin : ¬ (n < 1 ∨ 64 < n ∨ 16383 < first) := by omega
    exact request_refused hl (by decide) (Part.readPattern_accepted (p := s.part.asked 0x35 tag) rfl hin)
  case badLength =>
    exact request_refused hl (by decide) (Part.writePattern_badLength (p := s.part.asked 0x34 tag) (not_patternSized h))
  all_goals
    have hsize := patternSized_records (low := low) (high := high) h16 h1 h64 hn
    have hpieces : pieces 16 n records.flatten = records := hn ▸ pieces_flatten h16
  case outside => exact request_refused hl (by decide) (Part.writePattern_outside (p := s.part.asked 0x34 tag) hsize hout)
  case badRecord =>
    have hparse : parseAll goodRecord 0 (pieces 16 n records.flatten) = .error before.length := by
      rw [hpieces, hrecords, parseAll_goodRecord_error hbefore hbad, Nat.zero_add]
    exact request_refused hl (by decide) (Part.writePattern_badRecord (p := s.part.asked 0x34 tag) hsize hin hparse)
  all_goals
    have hparse : parseAll goodRecord 0 (pieces 16 n records.flatten) = .ok records := by
      rw [hpieces, parseAll_goodRecord_ok hok]
  case inUse =>
    have hprotector : s.part.protector first n = some c :=
      Part.protector_eq_some (Channel.protectsAny_eq_true_iff.mpr ⟨start, k, hplay, hlow, hhigh⟩)
        fun d hd => Channel.protectsAny_eq_false (hlower d hd)
    exact request_refused hl (by decide) (Part.writePattern_inUse (p := s.part.asked 0x34 tag) hsize hin hparse hprotector)
  case accepted =>
    have hprotector : s.part.protector first n = none :=
      Part.protector_eq_none fun c => Channel.protectsAny_eq_false (hfree c)
    exact request_answered hl (by decide) { s.part with pattern := Pattern.writeAll s.part.pattern (16 * first) records.flatten }
      (Part.writePattern_accepted (p := s.part.asked 0x34 tag) hsize hin hparse hprotector) hl.free hl.noRequest hl.noReply

end Sys2Proof.Machine
end

section
/-! PROOFS. The requests of the part itself (section 10.5): SET_LINK sets the silence timeout (R184), and IDENTIFY reports what the
part is and how it started (R182). -/

namespace Sys2Proof.Machine

open Sys2Proof

/-! ## Fields and lengths -/

/-- A byte as a one-byte field is the byte itself. -/
theorem le8_toNat (b : Byte) : le8 b.toNat = [b] := by rw [le8, BitVec.ofNat_toNat, BitVec.setWidth_eq]

/-- A four-byte field of a number below 2^32 reads back as the number. -/
theorem u32At_le32_of_lt {n : Nat} (h : n < 2 ^ 32) : u32At (le32 n) 0 = n := by
  have hword : (BitVec.ofNat 32 n).toNat = n := Nat.mod_eq_of_lt h
  rw [← hword, u32At_le32]

/-- The payload length comes before everything else (R189). -/
theorem Part.ofLength_of_ne {p : Part} {n : Nat} {payload : List Byte} (hn : payload.length ≠ n) (h : Part → Answer) :
    p.ofLength n payload h = p.refuse .badLength := if_neg hn

/-! ## SET_LINK (R184) -/

theorem Part.setLink_badLength {p : Part} {payload : List Byte} (h : payload.length ≠ 1) :
    p.setLink payload = p.refuse .badLength := Part.ofLength_of_ne h _

/-- What a payload of one byte is answered. -/
theorem Part.setLink_singleton (p : Part) (seconds : Byte) :
    p.setLink [seconds] =
      if 60 < seconds.toNat then p.refuse .badField
      else (p.modLink fun l => { l with silenceTimeout := seconds.toNat }, [0x00, seconds]) := by
  have hbyte : byteAt [seconds] 0 = seconds.toNat := rfl
  simp only [Part.setLink, Part.ofLength, List.length_singleton, if_true, hbyte, le8_toNat, Part.accept_eq]

/-- After an answered request the silence timer counts from the request's own frame, and a timeout of 0 stops it (R181). -/
theorem Part.answered_silenceAt (p : Part) (ty tag : Byte) (data : List Byte) :
    (p.answered ty tag data).link.silenceAt =
      if p.link.silenceTimeout = 0 then none else some (p.clock + p.link.silenceTimeout * 1000000) := rfl

/-- Settles O14: the two refusals, and the timeout taken with the moment it gives the silence timer. -/
theorem setLinkSetsTheTimeout : Obligations.SetLinkSetsTheTimeout := by
  refine fun s tag payload hl => ⟨fun h => ?badLength, ?oneByte⟩
  case badLength => exact request_refused hl (by decide) (Part.setLink_badLength (p := s.part.asked 0x03 tag) h)
  case oneByte =>
    rintro seconds rfl
    refine ⟨fun h => ?outOfRange, fun h => ⟨_, ?accepted, rfl, ?counts⟩⟩
    case outOfRange => exact request_refused hl (by decide) (((s.part.asked 0x03 tag).setLink_singleton seconds).trans (if_pos h))
    case accepted =>
      exact request_answered hl (by decide) { s.part with link := { s.part.link with silenceTimeout := seconds.toNat } }
        (((s.part.asked 0x03 tag).setLink_singleton seconds).trans (if_neg h.not_gt)) hl.free hl.noRequest hl.noReply
    case counts =>
      have hzero : seconds.toNat = 0 ↔ seconds = 0 := BitVec.toNat_eq (y := 0).symm
      rw [Part.answered_silenceAt, if_congr hzero rfl rfl]

/-! ## IDENTIFY (R182) -/

theorem Part.identify_badLength {p : Part} {payload : List Byte} (h : payload ≠ []) :
    p.identify payload = p.refuse .badLength := Part.ofLength_of_ne (mt List.length_eq_zero_iff.mp h) _

/-- The report is of the part as it was before the request, which it leaves as it is. -/
theorem Part.identify_asked (p : Part) (a b : Byte) : (p.asked a b).identify [] = (p.asked a b, 0x00 :: p.identity) := rfl

@[simp] theorem ResetCause.code_lt (c : ResetCause) : c.code < 256 := by cases c <;> decide

theorem fittedCount_le (n : FittedCount) : fittedCount n ≤ 8 := by cases n <;> decide

theorem rateBps_lt (r : LinkRate) : rateBps r < 2 ^ 32 := by cases r <;> decide

/-- The vendor code, the part code and the revision, at offset 0 of an IDENTIFY reply. -/
def partCodes : List Byte := le16 0x4A50 ++ chars ['W', '8', 'C'] ++ le8 1

/-- The straps, the fitted fixtures and the reset cause, at offset 6 of an IDENTIFY reply. -/
def Part.startReport (p : Part) : List Byte :=
  le32 (rateBps p.rate) ++ (le8 (fittedCount p.fitted) ++ (le8 (2 ^ fittedCount p.fitted - 1) ++ le8 p.cause.code))

/-- An IDENTIFY reply in its two blocks: what every part is, and how this one started. -/
theorem Part.identity_eq (p : Part) : p.identity = partCodes ++ p.startReport := by
  simp only [Part.identity, partCodes, Part.startReport, List.append_assoc]

@[simp] theorem length_partCodes : partCodes.length = 6 := by simp [partCodes, chars]
@[simp] theorem Part.length_startReport (p : Part) : p.startReport.length = 7 := by simp [Part.startReport]

theorem Part.length_identity (p : Part) : p.identity.length = 13 := by simp [Part.identity_eq]

/-- The vendor code, the characters W8C and revision 1. -/
theorem partCodes_fields :
    u16At partCodes 0 = 0x4A50 ∧ byteAt partCodes 2 = 0x57 ∧ byteAt partCodes 3 = 0x38 ∧ byteAt partCodes 4 = 0x43 ∧
    byteAt partCodes 5 = 1 := by decide

theorem Part.identity_codes (p : Part) :
    u16At p.identity 0 = 0x4A50 ∧ byteAt p.identity 2 = 0x57 ∧ byteAt p.identity 3 = 0x38 ∧ byteAt p.identity 4 = 0x43 ∧
    byteAt p.identity 5 = 1 := by
  simpa [Part.identity_eq] using partCodes_fields

theorem Part.identity_rate (p : Part) : u32At p.identity 6 = rateBps p.rate := by
  simp [Part.identity_eq, Part.startReport, u32At_le32_of_lt (rateBps_lt p.rate)]

theorem Part.identity_fittedCount (p : Part) : byteAt p.identity 10 = fittedCount p.fitted := by
  have hn : fittedCount p.fitted < 256 := (fittedCount_le p.fitted).trans_lt (by decide)
  simp [Part.identity_eq, Part.startReport, byteAt_le8_of_lt hn]

/-- The mask of the fitted fixtures: bit n for fixture n. -/
theorem Part.identity_fittedMask (p : Part) (f : FixtureIx) : (byteAt p.identity 11).testBit f.val = p.isFitted f := by
  have hmask : 2 ^ fittedCount p.fitted - 1 < 256 :=
    (Nat.sub_lt (Nat.two_pow_pos _) Nat.one_pos).trans_le (Nat.pow_le_pow_right Nat.two_pos (fittedCount_le p.fitted))
  simp [Part.identity_eq, Part.startReport, byteAt_le8_of_lt hmask, Part.isFitted]

theorem Part.identity_cause (p : Part) : byteAt p.identity 12 = p.cause.code := by
  simp [Part.identity_eq, Part.startReport, byteAt_le8_of_lt]

/-- Settles O16: the refusal, and the bytes of the report by their offsets (section 11.7). -/
theorem identifyReportsThePart : Obligations.IdentifyReportsThePart := by
  refine fun s tag payload hl => ⟨fun h => ?badLength, s.part.identity, ?reply, s.part.length_identity, ?fields⟩
  case badLength => exact request_refused hl (by decide) (Part.identify_badLength (p := s.part.asked 0x01 tag) h)
  case reply => exact request_refused hl (by decide) (s.part.identify_asked 0x01 tag)
  case fields =>
    obtain ⟨vendor, charW, char8, charC, revision⟩ := s.part.identity_codes
    refine ⟨vendor, charW, char8, charC, revision, s.part.identity_rate.trans ?rate, s.part.identity_fittedCount.trans ?count,
      s.part.identity_fittedMask, s.part.identity_cause.trans ?cause⟩
    case rate => cases s.part.rate <;> rfl
    case count => cases s.part.fitted <;> rfl
    case cause => cases s.part.cause <;> rfl

end Sys2Proof.Machine
end
section
/-! PROOFS. The laws of the part, kept by every operation: the relation, and the operations on one block it is made of. -/

namespace Sys2Proof.Machine

open Sys2Proof

/-! ## What it is to keep the laws -/

/-- The step in flight is a PROMPT whose entry has an identity. -/
def Fixture.HoldsPrompt (x : Fixture) (n : Nat) : Prop := ∃ i, x.inflight = some i ∧ i.progress = .prompt n

/-- A fixture's share of `Part.CapacityLaw`. -/
def Fixture.Capacity (x : Fixture) : Prop :=
  x.log.length + (if x.inflight.isSome then 1 else 0) ≤ 64 ∧ x.queue.length ≤ 32 ∧ x.port.queue.length ≤ 16

/-- A fixture's share of `Part.RangeLaw`. -/
def Fixture.RangeOk (x : Fixture) : Prop :=
  x.supply.range = .low → x.supply.state = .on ∧ ∃ i last since due, x.inflight = some i ∧ i.progress = .quiescent last since due

/-- A fixture's share of `Part.PortLaw`. -/
def Fixture.PortOk (x : Fixture) : Prop :=
  (x.port.state = .active ↔ x.run.isOpen = true) ∧ (x.port.state = .listen ↔ x.run.state = .halting) ∧
    (x.port.queue ≠ [] → x.port.state = .active)

/-- A fixture's share of `Part.VerdictLaw`. -/
def Fixture.VerdictOk (x : Fixture) : Prop :=
  (∀ r ∈ x.log, r.verdict.code ≤ x.run.verdict.code) ∧ (x.run.skipping = true → x.queue = [])

/-- No run opens, and the levels that guard the runs stand still. -/
structure Part.Guarded (p q : Part) : Prop where
  fitted : q.fitted = p.fitted
  opened : ∀ f, (q.fx f).run.isOpen = true → (p.fx f).run.isOpen = true
  presence : ∀ f, (q.fx f).sense.presence = (p.fx f).sense.presence
  lid : ∀ f, (q.fx f).sense.lid = (p.fx f).sense.lid
  stop : ∀ k, (q.con k).stopLevel = (p.con k).stopLevel

/-- While a reply waits in its slot, the transmitter, the slots and the receiver stand still: notices queue behind it (R179). -/
def Part.Held (p q : Part) : Prop :=
  p.link.reply ≠ none → q.link.tx = p.link.tx ∧ q.link.reply = p.link.reply ∧ q.link.frameBuf = p.link.frameBuf ∧
    q.link.rx = p.link.rx ∧ q.link.silenceFrom = p.link.silenceFrom

/-- Every law but the interlock that `p` meets `q` meets too. -/
structure Part.KeepsLaws (p q : Part) : Prop where
  store : p.StoreLaw → q.StoreLaw
  capacity : p.CapacityLaw → q.CapacityLaw
  lend : p.LendLaw → q.LendLaw
  range : p.RangeLaw → q.RangeLaw
  run : p.RunLaw → q.RunLaw
  port : p.RunLaw → p.PortLaw → q.PortLaw
  rack : p.RackLaw → q.RackLaw
  prompt : p.PromptLaw → q.PromptLaw
  verdict : p.VerdictLaw → q.VerdictLaw

/-- Every law that `p` meets `q` meets too, no run opens and the link is held: what an operation does that is not the opening of a
run, the end of a debounce, a reset or the link's own. -/
structure Part.Keeps (p q : Part) : Prop extends p.KeepsLaws q where
  held : p.Held q
  guarded : p.Guarded q

theorem Part.Guarded.refl (p : Part) : p.Guarded p := ⟨rfl, fun _ h => h, fun _ => rfl, fun _ => rfl, fun _ => rfl⟩

theorem Part.Guarded.trans {p q r : Part} (h : p.Guarded q) (k : q.Guarded r) : p.Guarded r :=
  ⟨k.fitted.trans h.fitted, fun f o => h.opened f (k.opened f o), fun f => (k.presence f).trans (h.presence f),
    fun f => (k.lid f).trans (h.lid f), fun c => (k.stop c).trans (h.stop c)⟩

theorem Part.Held.of_link {p q : Part} (h : q.link = p.link) : p.Held q := fun _ => by rw [h]; exact ⟨rfl, rfl, rfl, rfl, rfl⟩

theorem Part.Held.trans {p q r : Part} (h : p.Held q) (k : q.Held r) : p.Held r := by
  intro hp
  obtain ⟨h1, h2, h3, h4, h5⟩ := h hp
  obtain ⟨k1, k2, k3, k4, k5⟩ := k (h2 ▸ hp)
  exact ⟨k1.trans h1, k2.trans h2, k3.trans h3, k4.trans h4, k5.trans h5⟩

theorem Part.KeepsLaws.refl (p : Part) : p.KeepsLaws p := ⟨id, id, id, id, id, fun _ => id, id, id, id⟩

theorem Part.KeepsLaws.trans {p q r : Part} (h : p.KeepsLaws q) (k : q.KeepsLaws r) : p.KeepsLaws r :=
  ⟨k.store ∘ h.store, k.capacity ∘ h.capacity, k.lend ∘ h.lend, k.range ∘ h.range, k.run ∘ h.run,
    fun hr hp => k.port (h.run hr) (h.port hr hp), k.rack ∘ h.rack, k.prompt ∘ h.prompt, k.verdict ∘ h.verdict⟩

theorem Part.Keeps.laws {p q : Part} (h : p.Keeps q) : p.KeepsLaws q := h.toKeepsLaws

theorem Part.Keeps.refl (p : Part) : p.Keeps p := ⟨.refl p, .of_link rfl, .refl p⟩

theorem Part.Keeps.trans {p q r : Part} (h : p.Keeps q) (k : q.Keeps r) : p.Keeps r :=
  ⟨h.laws.trans k.laws, h.held.trans k.held, h.guarded.trans k.guarded⟩

theorem Part.Keeps.of_eq {p q : Part} (h : q = p) : p.Keeps q := h ▸ .refl p

theorem Part.Keeps.ite {p q r : Part} {c : Prop} [Decidable c] (h : c → p.Keeps q) (k : ¬ c → p.Keeps r) :
    p.Keeps (if c then q else r) := by
  split
  · exact h ‹_›
  · exact k ‹_›

/-- A list of operations each of which keeps the laws keeps them. -/
theorem Part.Keeps.each {α : Type} {g : α → Part → Part} (h : ∀ a p, Part.Keeps p (g a p)) (l : List α) (p : Part) :
    p.Keeps (p.each l g) := by
  induction l generalizing p with
  | nil => exact .refl p
  | cons a l ih => exact (h a p).trans (ih (g a p))

/-! ## Changes the laws do not see -/

/-- Two parts differ only in what no law speaks of. -/
structure Part.SameSeen (p q : Part) : Prop where
  fixtures : q.fixtures = p.fixtures := by rfl
  channels : q.channels = p.channels := by rfl
  pattern : q.pattern = p.pattern := by rfl
  burst : q.conv.burst = p.conv.burst := by rfl
  cref : q.conv.cref = p.conv.cref := by rfl
  matrix : q.lend.matrix = p.lend.matrix := by rfl
  rack : q.rack.level = p.rack.level := by rfl
  notices : q.link.notices = p.link.notices := by rfl
  entries : ∀ k, (q.con k).entries = (p.con k).entries := by intro k; rfl
  nextId : ∀ k, (q.con k).nextId = (p.con k).nextId := by intro k; rfl

theorem Part.fx_congr {p q : Part} (h : q.fixtures = p.fixtures) (f : FixtureIx) : q.fx f = p.fx f := by
  simp only [Part.fx, h]

theorem Part.ch_congr {p q : Part} (h : q.channels = p.channels) (c : ChannelIx) : q.ch c = p.ch c := by
  simp only [Part.ch, h]

theorem Part.SameSeen.keepsLaws {p q : Part} (h : p.SameSeen q) : p.KeepsLaws q := by
  obtain ⟨hfx, hch, hpat, hburst, hcref, hmat, hrack, hnot, hent, hid⟩ := h
  have fx := Part.fx_congr hfx
  have ch := Part.ch_congr hch
  constructor
  all_goals
    simp only [Part.StoreLaw, Part.CapacityLaw, Part.LendLaw, Part.RangeLaw, Part.RunLaw, Part.PortLaw, Part.RackLaw,
      Part.PromptLaw, Part.VerdictLaw, fx, ch, hpat, hburst, hcref, hmat, hrack, hnot, hent, hid]
  case port => exact fun _ => id
  all_goals exact id

theorem Part.SameSeen.keeps {p q : Part} (h : p.SameSeen q) (hl : q.link = p.link) (hf : q.fitted = p.fitted)
    (hs : ∀ k, (q.con k).stopLevel = (p.con k).stopLevel) : p.Keeps q :=
  ⟨h.keepsLaws, .of_link hl, hf, by simp [Part.fx_congr h.fixtures], by simp [Part.fx_congr h.fixtures], by simp [Part.fx_congr h.fixtures], hs⟩

/-! ## The link -/

theorem Part.modLink_keepsLaws {p : Part} {g : Link → Link}
    (h : p.link.notices.length ≤ 32 → (g p.link).notices.length ≤ 32) : p.KeepsLaws (p.modLink g) where
  store := fun ⟨a, b, c, d⟩ => ⟨a, b, c, h d⟩
  capacity := id
  lend := id
  range := id
  run := id
  port := fun _ => id
  rack := id
  prompt := id
  verdict := id

theorem Part.modLink_guarded (p : Part) (g : Link → Link) : p.Guarded (p.modLink g) :=
  ⟨rfl, fun _ => id, fun _ => rfl, fun _ => rfl, fun _ => rfl⟩

theorem Part.post_held (p : Part) (n : Notice) : p.Held (p.post n) := by
  intro hr
  simp only [Part.post, Part.modLink_link]
  split
  · rename_i h; exact absurd h.2.1 hr
  · split <;> exact ⟨rfl, rfl, rfl, rfl, rfl⟩

theorem Part.post_keeps (p : Part) (n : Notice) : p.Keeps (p.post n) := by
  refine ⟨Part.modLink_keepsLaws fun h => ?_, p.post_held n, p.modLink_guarded _⟩
  split
  · exact h
  · split
    · simp; omega
    · exact h

theorem Part.postRunState_keeps (p : Part) (f : FixtureIx) : p.Keeps (p.postRunState f) := p.post_keeps _

theorem Part.postSupplyEvent_keeps (p : Part) (f : FixtureIx) (k : SupplyEvent) : p.Keeps (p.postSupplyEvent f k) := p.post_keeps _

theorem Part.postChannel_keeps (p : Part) (c : ChannelIx) (k : ChannelEvent) (b : Option Bank) : p.Keeps (p.postChannel c k b) := by
  unfold Part.postChannel
  split
  · exact .refl p
  · exact p.post_keeps _

/-! ## One fixture -/

/-- Something stands behind the fixture's run: a step in flight, or a bound channel that plays or starves. -/
def Part.Driven (p : Part) (f : FixtureIx) : Prop :=
  (p.fx f).inflight.isSome = true ∨
    ∃ c, (p.ch c).boundTo f = true ∧ ((p.ch c).state = .playing ∨ (p.ch c).state = .starved)

theorem Part.Driven.isOpen {p : Part} {f : FixtureIx} (h : p.Driven f) (hr : p.RunLaw) : (p.fx f).run.isOpen = true := by
  obtain ⟨_, hi, hc⟩ := hr f
  rcases h with h | ⟨c, hb, hs⟩
  · exact hi h
  · exact hc c hb hs

/-- A fixture in another's place meets the laws its predecessor met. -/
structure Part.FixtureLaws (p : Part) (f : FixtureIx) (y : Fixture) : Prop where
  capacity : (p.fx f).Capacity → y.Capacity
  range : (p.fx f).RangeOk → y.RangeOk
  run : p.RunLaw → (y.supply.live = true → y.run.isOpen = true) ∧ (y.inflight.isSome = true → y.run.isOpen = true) ∧
    ∀ c, (p.ch c).boundTo f = true → ((p.ch c).state = .playing ∨ (p.ch c).state = .starved) → y.run.isOpen = true
  port : p.RunLaw → (p.fx f).PortOk → y.PortOk
  rack : y.supply.live = true → (p.fx f).supply.live = true ∨ p.rack.level ≠ .cutoff
  prompt : ∀ n, (p.fx f).HoldsPrompt n → y.HoldsPrompt n ∨ ∀ e ∈ (p.con (consoleFor f)).entries, e.owner = f → e.isSafety = true
  verdict : (p.fx f).VerdictOk → y.VerdictOk

/-- A fixture in another's place keeps the laws, opens no run and has the levels of its predecessor's switches. -/
structure Part.FixtureKeeps (p : Part) (f : FixtureIx) (y : Fixture) : Prop extends p.FixtureLaws f y where
  opened : y.run.isOpen = true → (p.fx f).run.isOpen = true
  presence : y.sense.presence = (p.fx f).sense.presence
  lid : y.sense.lid = (p.fx f).sense.lid

/-- A statement about every fixture after a change of one. -/
theorem Part.forall_modFx {P : FixtureIx → Fixture → Prop} {p : Part} {f : FixtureIx} {g : Fixture → Fixture}
    (h : ∀ k, P k (p.fx k)) (hf : P f (g (p.fx f))) (k : FixtureIx) : P k ((p.modFx f g).fx k) := by
  by_cases e : k = f
  · subst e; rwa [Part.modFx_fx]
  · rw [Part.modFx_fx_ne _ _ e]; exact h k

theorem Part.FixtureLaws.keepsLaws {p : Part} {f : FixtureIx} {g : Fixture → Fixture} (h : p.FixtureLaws f (g (p.fx f))) :
    p.KeepsLaws (p.modFx f g) where
  store := id
  capacity := fun hc => Part.forall_modFx (P := fun _ x => x.Capacity) hc (h.capacity (hc f))
  lend := id
  range := fun hr => Part.forall_modFx (P := fun _ x => x.RangeOk) hr (h.range (hr f))
  run := fun hr => Part.forall_modFx (P := fun k x => (x.supply.live = true → x.run.isOpen = true) ∧
    (x.inflight.isSome = true → x.run.isOpen = true) ∧
    ∀ c, (p.ch c).boundTo k = true → ((p.ch c).state = .playing ∨ (p.ch c).state = .starved) → x.run.isOpen = true) hr (h.run hr)
  port := fun hr hp => Part.forall_modFx (P := fun _ x => x.PortOk) hp (h.port hr (hp f))
  rack := fun hr hcut => Part.forall_modFx (P := fun _ x => x.supply.live = false) (hr hcut) <| by
    rw [Bool.eq_false_iff]
    intro hl
    rcases h.rack hl with h' | h'
    · simp [hr hcut f] at h'
    · exact h' hcut
  prompt := fun hp k => by
    obtain ⟨h1, h2, h3, h4, h5, h6⟩ := hp k
    refine ⟨h1, h2, h3, h4, h5, fun e he hs => ?_⟩
    by_cases ho : e.owner = f
    · rw [ho, Part.modFx_fx]
      rcases h.prompt e.id (ho ▸ h6 e he hs) with h' | h'
      · exact h'
      · have hk := (h2 e he).2
        rw [ho] at hk
        rw [h' e (hk ▸ he) ho] at hs
        exact absurd hs (by simp)
    · rw [Part.modFx_fx_ne _ _ ho]; exact h6 e he hs
  verdict := fun hv => Part.forall_modFx (P := fun _ x => x.VerdictOk) hv (h.verdict (hv f))

theorem Part.FixtureKeeps.keeps {p : Part} {f : FixtureIx} {g : Fixture → Fixture} (h : p.FixtureKeeps f (g (p.fx f))) :
    p.Keeps (p.modFx f g) :=
  ⟨h.toFixtureLaws.keepsLaws, .of_link rfl, rfl, Part.forall_modFx (P := fun k x => x.run.isOpen = true → (p.fx k).run.isOpen = true) (fun _ => id) h.opened,
    Part.forall_modFx (P := fun k x => x.sense.presence = (p.fx k).sense.presence) (fun _ => rfl) h.presence,
    Part.forall_modFx (P := fun k x => x.sense.lid = (p.fx k).sense.lid) (fun _ => rfl) h.lid, fun _ => rfl⟩

/-- Two fixtures differ only in what no law speaks of, or in the supply, or in the step in flight. -/
structure Fixture.SameRun (x y : Fixture) : Prop where
  log : y.log = x.log := by rfl
  queue : y.queue = x.queue := by rfl
  portState : y.port.state = x.port.state := by rfl
  portQueue : y.port.queue = x.port.queue := by rfl
  run : y.run.state = x.run.state := by rfl
  verdict : y.run.verdict = x.run.verdict := by rfl
  skipping : y.run.skipping = x.run.skipping := by rfl
  presence : y.sense.presence = x.sense.presence := by rfl
  lid : y.sense.lid = x.sense.lid := by rfl

/-- A fixture whose supply and step in flight alone differ, for the laws. -/
theorem Part.FixtureKeeps.of_sameRun {p : Part} {f : FixtureIx} {y : Fixture} (h : (p.fx f).SameRun y)
    (hi : y.inflight.isSome = true → (p.fx f).inflight.isSome = true)
    (hl : y.supply.live = true → (p.fx f).supply.live = true ∨ (p.Driven f ∧ p.rack.level ≠ .cutoff))
    (hr : (p.fx f).RangeOk → y.RangeOk)
    (hp : ∀ n, (p.fx f).HoldsPrompt n → y.HoldsPrompt n ∨ ∀ e ∈ (p.con (consoleFor f)).entries, e.owner = f → e.isSafety = true) :
    p.FixtureKeeps f y := by
  obtain ⟨hlog, hqueue, hps, hpq, hrun, hver, hskip, hpres, hlid⟩ := h
  have ho : y.run.isOpen = (p.fx f).run.isOpen := by simp only [Run.isOpen, hrun]
  refine ⟨⟨?_, hr, fun hR => ⟨fun l => ?_, fun i => ?_, ?_⟩, fun _ => ?_, fun l => (hl l).imp_right And.right, hp, ?_⟩, fun o => ho ▸ o,
    hpres, hlid⟩
  · simp only [Fixture.Capacity, hlog, hqueue, hpq]
    intro ⟨a, b⟩
    refine ⟨?_, b⟩
    cases hy : y.inflight.isSome
    · simp; omega
    · simpa [hi hy] using a
  · rw [ho]
    rcases hl l with l | ⟨d, _⟩
    · exact (hR f).1 l
    · exact d.isOpen hR
  · rw [ho]; exact (hR f).2.1 (hi i)
  · rw [ho]; exact (hR f).2.2
  · simp only [Fixture.PortOk, hps, hpq, ho, hrun]; exact id
  · simp only [Fixture.VerdictOk, hlog, hver, hskip, hqueue]; exact id

/-- A fixture that differs in nothing a law speaks of. -/
theorem Part.FixtureKeeps.of_same {p : Part} {f : FixtureIx} {y : Fixture} (h : (p.fx f).SameRun y)
    (hi : y.inflight = (p.fx f).inflight) (hs : y.supply.state = (p.fx f).supply.state)
    (hr : y.supply.range = (p.fx f).supply.range) : p.FixtureKeeps f y :=
  .of_sameRun h (by rw [hi]; exact id) (by simp only [Supply.live, hs]; exact .inl)
    (by simp only [Fixture.RangeOk, hi, hs, hr]; exact id) (fun n hn => .inl (by simpa only [Fixture.HoldsPrompt, hi] using hn))

/-- A change of a supply: live afterwards only if it was, or for a driven run under a rack that is not cut off. -/
theorem Part.modSupply_keeps {p : Part} {f : FixtureIx} {g : Supply → Supply}
    (hl : (g (p.fx f).supply).live = true → (p.fx f).supply.live = true ∨ (p.Driven f ∧ p.rack.level ≠ .cutoff))
    (hr : (p.fx f).RangeOk → { p.fx f with supply := g (p.fx f).supply }.RangeOk) : p.Keeps (p.modSupply f g) :=
  (Part.FixtureKeeps.of_sameRun (p := p) (y := { p.fx f with supply := g (p.fx f).supply }) {} id hl hr fun _ => .inl).keeps

/-- A change of a supply's settings and levels. -/
theorem Part.modSupply_keeps_of_same {p : Part} {f : FixtureIx} {g : Supply → Supply}
    (hs : (g (p.fx f).supply).state = (p.fx f).supply.state) (hr : (g (p.fx f).supply).range = (p.fx f).supply.range) :
    p.Keeps (p.modSupply f g) :=
  (Part.FixtureKeeps.of_same (p := p) (y := { p.fx f with supply := g (p.fx f).supply }) {} rfl hs hr).keeps

theorem Part.modOuts_keeps (p : Part) (f : FixtureIx) (g : Outputs → Outputs) : p.Keeps (p.modOuts f g) :=
  (Part.FixtureKeeps.of_same (p := p) (y := { p.fx f with outs := g (p.fx f).outs }) {} rfl rfl rfl).keeps

/-- A change of a port's attempt and response, by which frames may leave its queue. -/
theorem Part.modPort_keeps {p : Part} {f : FixtureIx} {g : Port → Port} (hs : (g (p.fx f).port).state = (p.fx f).port.state)
    (hq : (g (p.fx f).port).queue.length ≤ (p.fx f).port.queue.length) : p.Keeps (p.modPort f g) := by
  refine Part.FixtureKeeps.keeps (p := p) ⟨⟨fun hc => ⟨hc.1, hc.2.1, hq.trans hc.2.2⟩, fun h => h, fun h => h f, fun _ hp => ?_, .inl,
    fun _ => .inl, fun h => h⟩, fun h => h, rfl, rfl⟩
  refine ⟨hs ▸ hp.1, hs ▸ hp.2.1, fun hne => ?_⟩
  show (g (p.fx f).port).state = _
  rw [hs]
  refine hp.2.2 fun he => hne ?_
  rw [he] at hq
  exact List.length_eq_zero_iff.mp (Nat.le_zero.mp hq)

theorem Part.modCapture_keeps (p : Part) (f : FixtureIx) (g : Fixture → Capture) :
    p.Keeps (p.modFx f fun x => { x with capture := g x }) :=
  (Part.FixtureKeeps.of_same (p := p) (y := { p.fx f with capture := g (p.fx f) }) {} rfl rfl rfl).keeps

theorem Part.modWatch_keeps (p : Part) (f : FixtureIx) (e : Fin 8) (g : Watch → Watch) : p.Keeps (p.modWatch f e g) :=
  (Part.FixtureKeeps.of_same (p := p)
    (y := { p.fx f with watch := (p.fx f).watch.set e.val (g ((p.fx f).watchOf e)) e.isLt }) {} rfl rfl rfl).keeps

theorem Part.outputDefaults_keeps (p : Part) (f : FixtureIx) : p.Keeps (p.outputDefaults f) :=
  (Part.FixtureKeeps.of_same (p := p) (y := { p.fx f with outs := { pins := (p.fx f).outs.pins }
                                                          capture := { (p.fx f).capture with state := .idle } }) {} rfl rfl rfl).keeps

/-! ## Channels -/

/-- A change of a channel keeps the laws if it plays or starves afterwards only for a fixture whose run is driven. -/
theorem Part.modCh_keeps {p : Part} {c : ChannelIx} {g : Channel → Channel}
    (h : ∀ f, (g (p.ch c)).boundTo f = true → ((g (p.ch c)).state = .playing ∨ (g (p.ch c)).state = .starved) → p.Driven f) :
    p.Keeps (p.modCh c g) where
  store := id
  capacity := id
  lend := id
  range := id
  run := fun hr f => by
    obtain ⟨h1, h2, h3⟩ := hr f
    refine ⟨h1, h2, fun d hb hs => ?_⟩
    by_cases e : d = c
    · subst e
      rw [Part.modCh_ch] at hb hs
      exact (h f hb hs).isOpen hr
    · rw [Part.modCh_ch_ne _ _ e] at hb hs
      exact h3 d hb hs
  port := fun _ => id
  rack := id
  prompt := id
  verdict := id
  held := .of_link rfl
  guarded := ⟨rfl, fun _ => id, fun _ => rfl, fun _ => rfl, fun _ => rfl⟩

/-- A channel that stops keeps the laws. -/
theorem Part.modCh_keeps_of_stopped {p : Part} {c : ChannelIx} {g : Channel → Channel}
    (h : (g (p.ch c)).state ≠ .playing ∧ (g (p.ch c)).state ≠ .starved) : p.Keeps (p.modCh c g) :=
  Part.modCh_keeps fun _ _ hs => (hs.elim h.1 h.2).elim

/-- A channel that plays or starves may go on to do either, bound as it is. -/
theorem Part.modCh_keeps_of_playing {p : Part} {c : ChannelIx} {g : Channel → Channel}
    (hs : (p.ch c).state = .playing ∨ (p.ch c).state = .starved) (hd : (g (p.ch c)).defn = (p.ch c).defn) :
    p.Keeps (p.modCh c g) :=
  Part.modCh_keeps fun _ hb _ => .inr ⟨c, by simpa only [Channel.boundTo, hd] using hb, hs⟩

/-- A channel whose state and definition stay keeps the laws. -/
theorem Part.modCh_keeps_of_same {p : Part} {c : ChannelIx} {g : Channel → Channel}
    (hs : (g (p.ch c)).state = (p.ch c).state) (hd : (g (p.ch c)).defn = (p.ch c).defn) : p.Keeps (p.modCh c g) :=
  Part.modCh_keeps fun _ hb h => .inr ⟨c, by simpa only [Channel.boundTo, hd] using hb, hs ▸ h⟩

/-! ## The converter and the lend state -/

theorem Part.modConv_keeps {p : Part} {g : Converter → Converter}
    (hb : (g p.conv).burst ≠ none → p.conv.burst ≠ none ∨ p.lend.matrix.code ≠ 2)
    (hc : (2700 ≤ p.conv.cref ∧ p.conv.cref ≤ 3300) → 2700 ≤ (g p.conv).cref ∧ (g p.conv).cref ≤ 3300) : p.Keeps (p.modConv g) where
  store := fun ⟨a, b, c, d⟩ => ⟨a, (hc ⟨b, c⟩).1, (hc ⟨b, c⟩).2, d⟩
  capacity := id
  lend := fun h h2 => by
    by_contra hne
    rcases hb hne with h' | h'
    · exact h' (h h2)
    · exact h' h2
  range := id
  run := id
  port := fun _ => id
  rack := id
  prompt := id
  verdict := id
  held := .of_link rfl
  guarded := ⟨rfl, fun _ => id, fun _ => rfl, fun _ => rfl, fun _ => rfl⟩

/-- A change of the converter that starts no burst and leaves Cref. -/
theorem Part.modConv_keeps_of_same {p : Part} {g : Converter → Converter} (hb : p.conv.burst = none → (g p.conv).burst = none)
    (hc : (g p.conv).cref = p.conv.cref) : p.Keeps (p.modConv g) :=
  Part.modConv_keeps (fun h => .inl (mt hb h)) (by rw [hc]; exact id)

theorem Part.modLend_keeps {p : Part} {g : Lend → Lend}
    (h : (g p.lend).matrix.code = 2 → p.lend.matrix.code = 2 ∨ p.conv.burst = none) : p.Keeps (p.modLend g) where
  store := id
  capacity := id
  lend := fun hl h2 => (h h2).elim (fun h => hl h) id
  range := id
  run := id
  port := fun _ => id
  rack := id
  prompt := id
  verdict := id
  held := .of_link rfl
  guarded := ⟨rfl, fun _ => id, fun _ => rfl, fun _ => rfl, fun _ => rfl⟩

/-! ## Consoles -/

theorem Part.modCon_con_ne (p : Part) {k l : ConsoleId} (g : Console → Console) (h : l ≠ k) : (p.modCon k g).con l = p.con l := by
  cases k <;> cases l <;> first | rfl | exact absurd rfl h

/-- A list of entries is in order for a console, beside the tie of its NORMAL entries to their steps. -/
def Entries.Ordered (es : List Entry) (next : Nat) (k : ConsoleId) : Prop :=
  (es.map (·.id)).Nodup ∧ (∀ e ∈ es, e.id < next ∧ consoleFor e.owner = k) ∧
    es.Pairwise (fun a b => b.isSafety = true → a.isSafety = true) ∧
    ((es.filter (·.isSafety)).map (·.owner)).Nodup ∧ ((es.filter (!·.isSafety)).map (·.owner)).Nodup

theorem Entries.Ordered.sublist {es fs : List Entry} {next : Nat} {k : ConsoleId} (h : Entries.Ordered es next k)
    (hs : fs.Sublist es) : Entries.Ordered fs next k := by
  obtain ⟨h1, h2, h3, h4, h5⟩ := h
  exact ⟨h1.sublist (hs.map _), fun e he => h2 e (hs.subset he), h3.sublist hs, h4.sublist ((hs.filter _).map _),
    h5.sublist ((hs.filter _).map _)⟩

theorem Part.promptLaw_iff {p : Part} : p.PromptLaw ↔
    ∀ k, Entries.Ordered (p.con k).entries (p.con k).nextId k ∧
      ∀ e ∈ (p.con k).entries, e.isSafety = false → (p.fx e.owner).HoldsPrompt e.id := by
  simp only [Part.PromptLaw, Entries.Ordered, Fixture.HoldsPrompt, and_assoc]

/-- A change of one console keeps the laws if its list stays in order and its NORMAL entries stay tied to their steps. -/
theorem Part.modCon_keeps {p : Part} {k : ConsoleId} {g : Console → Console}
    (hstop : (g (p.con k)).stopLevel = (p.con k).stopLevel)
    (ho : Entries.Ordered (p.con k).entries (p.con k).nextId k →
      (∀ e ∈ (p.con k).entries, e.isSafety = false → (p.fx e.owner).HoldsPrompt e.id) →
      Entries.Ordered (g (p.con k)).entries (g (p.con k)).nextId k)
    (hn : ∀ e ∈ (g (p.con k)).entries, e.isSafety = false → e ∈ (p.con k).entries ∨ (p.fx e.owner).HoldsPrompt e.id) :
    p.Keeps (p.modCon k g) where
  store := by simp [Part.StoreLaw]
  capacity := by simp [Part.CapacityLaw]
  lend := by simp [Part.LendLaw]
  range := by simp [Part.RangeLaw]
  run := by simp [Part.RunLaw]
  port := by simp [Part.PortLaw]
  rack := by simp [Part.RackLaw]
  prompt := by
    simp only [Part.promptLaw_iff]
    intro h l
    by_cases e : l = k
    · subst e
      rw [Part.modCon_con]
      refine ⟨ho (h l).1 (h l).2, fun e he hs => ?_⟩
      rw [Part.modCon_fx]
      rcases hn e he hs with h' | h'
      · exact (h l).2 e h' hs
      · exact h'
    · rw [Part.modCon_con_ne _ _ e]
      simpa using h l
  verdict := by simp [Part.VerdictLaw]
  held := .of_link (by simp)
  guarded := by
    refine ⟨by simp, by simp, by simp, by simp, fun l => ?_⟩
    by_cases e : l = k
    · subst e; rw [Part.modCon_con]; exact hstop
    · rw [Part.modCon_con_ne _ _ e]

/-- Entries that leave a list keep the laws. -/
theorem Part.modCon_keeps_of_sublist {p : Part} {k : ConsoleId} {g : Console → Console}
    (hstop : (g (p.con k)).stopLevel = (p.con k).stopLevel) (hid : (g (p.con k)).nextId = (p.con k).nextId)
    (hs : (g (p.con k)).entries.Sublist (p.con k).entries) : p.Keeps (p.modCon k g) :=
  Part.modCon_keeps hstop (fun h _ => hid ▸ h.sublist hs) fun _ he _ => .inl (hs.subset he)

end Sys2Proof.Machine
end

section
/-! PROOFS. The laws of the part are kept by the prompt lists, the converter and the matrix, and by the end of a step or of a run. -/

namespace Sys2Proof.Machine

open Sys2Proof

/-! ## Prompt lists -/

theorem Fixture.HoldsPrompt.unique {x : Fixture} {m n : Nat} (h : x.HoldsPrompt m) (k : x.HoldsPrompt n) : m = n := by
  obtain ⟨i, hi, hm⟩ := h
  obtain ⟨j, hj, hn⟩ := k
  obtain rfl : i = j := Option.some.inj (hi.symm.trans hj)
  exact Progress.prompt.inj (hm.symm.trans hn)

theorem Part.giveSafety_keeps (p : Part) (f : FixtureIx) (t : List Byte) : p.Keeps (p.giveSafety f t) := by
  unfold Part.giveSafety
  generalize hk : consoleFor f = k
  refine Part.modCon_keeps rfl (fun ho _ => ?_) fun e he hs => ?_
  · generalize (p.con k).entries = es at ho ⊢
    obtain ⟨h1, h2, h3, h4, h5⟩ := ho.sublist (List.filter_sublist (p := fun e => !(decide (e.owner = f) && e.isSafety)))
    refine ⟨List.nodup_cons.mpr ⟨fun hm => ?_, h1⟩, fun e he => ?_, List.pairwise_cons.mpr ⟨fun _ _ _ => rfl, h3⟩, ?_, ?_⟩
    · obtain ⟨e, he, hid⟩ := List.mem_map.mp hm
      exact absurd hid (Nat.ne_of_lt (h2 e he).1)
    · rcases List.mem_cons.mp he with rfl | he
      · exact ⟨Nat.lt_succ_self _, hk⟩
      · exact ⟨Nat.lt_succ_of_lt (h2 e he).1, (h2 e he).2⟩
    · rw [List.filter_cons_of_pos (by rfl), List.map_cons, List.nodup_cons]
      refine ⟨fun hm => ?_, h4⟩
      obtain ⟨e, he, ho⟩ := List.mem_map.mp hm
      simp only [List.mem_filter] at he
      simp [he.2, ho] at he
    · rwa [List.filter_cons_of_neg (by simp [Entry.isSafety])]
  · rcases List.mem_cons.mp he with rfl | he
    · simp [Entry.isSafety] at hs
    · exact .inl (List.mem_of_mem_filter he)

theorem Part.removeSafety_keeps (p : Part) (f : FixtureIx) : p.Keeps (p.removeSafety f) :=
  Part.modCon_keeps_of_sublist rfl rfl List.filter_sublist

theorem Part.removeNormal_keeps (p : Part) (f : FixtureIx) : p.Keeps (p.removeNormal f) :=
  Part.modCon_keeps_of_sublist rfl rfl List.filter_sublist

/-- A NORMAL entry arrives with the identity that the PROMPT step in flight holds. -/
theorem Part.addNormal_keeps {p : Part} {e : Entry} (hn : e.isSafety = false) (hid : e.id = (p.con (consoleFor e.owner)).nextId)
    (hp : (p.fx e.owner).HoldsPrompt e.id) : p.Keeps (p.addNormal e) := by
  unfold Part.addNormal
  generalize hk : consoleFor e.owner = k at hid
  refine Part.modCon_keeps rfl (fun ho ht => ?_) fun d hd hs => ?_
  · obtain ⟨h1, h2, h3, h4, h5⟩ := ho
    have hlt : ∀ d ∈ (p.con k).entries, d.id ≠ e.id := fun d hd => hid ▸ Nat.ne_of_lt (h2 d hd).1
    refine ⟨?_, fun d hd => ?_, ?_, ?_, ?_⟩
    · simp only [List.map_append, List.map_cons, List.map_nil, List.nodup_append, h1, List.nodup_singleton, true_and]
      intro a ha b hb
      obtain ⟨d, hd, rfl⟩ := List.mem_map.mp ha
      obtain rfl := List.mem_singleton.mp hb
      exact hlt d hd
    · rcases List.mem_append.mp hd with hd | hd
      · exact ⟨Nat.lt_succ_of_lt (h2 d hd).1, (h2 d hd).2⟩
      · obtain rfl := List.mem_singleton.mp hd
        exact ⟨hid ▸ Nat.lt_succ_self _, hk⟩
    · refine List.pairwise_append.mpr ⟨h3, List.pairwise_singleton _ _, fun a _ b hb hs => ?_⟩
      obtain rfl := List.mem_singleton.mp hb
      simp [hn] at hs
    · simpa [List.filter_append, hn] using h4
    · simp only [List.filter_append, List.map_append, List.nodup_append]
      refine ⟨h5, by simp [hn], fun a ha b hb => ?_⟩
      obtain ⟨d, hd, rfl⟩ := List.mem_map.mp ha
      obtain ⟨d', hd', rfl⟩ := List.mem_map.mp hb
      obtain rfl := List.mem_singleton.mp (List.mem_of_mem_filter hd')
      obtain ⟨hd, hs⟩ := List.mem_filter.mp hd
      intro ho
      exact hlt d hd ((ho ▸ ht d hd (by simpa using hs)).unique hp)
  · rcases List.mem_append.mp hd with hd | hd
    · exact .inl hd
    · obtain rfl := List.mem_singleton.mp hd
      exact .inr hp

/-! ## The step in flight -/

/-- A step in flight that makes progress: a QUIESCENT step stays one, and no PROMPT step changes. -/
theorem Part.FixtureKeeps.of_progress {p : Part} {f : FixtureIx} {i : InFlight} {g : Progress} (hi : (p.fx f).inflight = some i)
    (hq : ∀ last since due, i.progress = .quiescent last since due → ∃ last since due, g = .quiescent last since due)
    (hp : ∀ n, i.progress ≠ .prompt n) : p.FixtureKeeps f { p.fx f with inflight := some { i with progress := g } } := by
  refine .of_sameRun {} (by simp [hi]) .inl (fun hr hl => ?_) fun n ⟨j, hj, hn⟩ => ?_
  · obtain ⟨ho, j, last, since, due, hj, hj'⟩ := hr hl
    obtain rfl : i = j := Option.some.inj (hi.symm.trans hj)
    obtain ⟨last', since', due', hg⟩ := hq _ _ _ hj'
    exact ⟨ho, _, last', since', due', rfl, hg⟩
  · obtain rfl : i = j := Option.some.inj (hi.symm.trans hj)
    exact absurd hn (hp n)

theorem Part.clearBelow_keeps (p : Part) (f : FixtureIx) : p.Keeps (p.clearBelow f) := by
  refine Part.FixtureKeeps.keeps ?_
  split
  · rename_i i hi
    split
    · rename_i hpr
      exact .of_progress hi (fun _ _ _ _ => ⟨_, _, _, rfl⟩) (by simp [hpr])
    · exact .of_same {} rfl rfl rfl
  · exact .of_same {} rfl rfl rfl

/-- Clearing below_since leaves every PROMPT step as it is. -/
theorem Part.clearBelow_holdsPrompt (p : Part) (f : FixtureIx) (n : Nat) :
    ((p.clearBelow f).fx f).HoldsPrompt n ↔ (p.fx f).HoldsPrompt n := by
  unfold Part.clearBelow
  rw [Part.modFx_fx]
  split
  · rename_i i hi
    split
    · rename_i hpr
      simp [Fixture.HoldsPrompt, hi, hpr]
    · rfl
  · rfl

/-! ## Ranges -/

/-- A change of range keeps the laws, one to LOW if the supply is ON with a QUIESCENT step in flight. -/
theorem Part.changeRange_keeps {p : Part} {f : FixtureIx} {r : Range}
    (h : r = .low → (p.fx f).supply.state = .on ∧
      ∃ i last since due, (p.fx f).inflight = some i ∧ i.progress = .quiescent last since due) : p.Keeps (p.changeRange f r) := by
  refine .trans (.trans (q := p.modSupply f fun s => { s with range := r }) ?_ ?_) (Part.clearBelow_keeps _ f)
  · exact Part.modSupply_keeps .inl fun _ => h
  · exact Part.modConv_keeps_of_same (fun hb => by rw [hb]; rfl) rfl

theorem Part.rangeHigh_keeps (p : Part) (f : FixtureIx) : p.Keeps (p.rangeHigh f) :=
  .ite (fun _ => Part.changeRange_keeps nofun) fun _ => .refl p

theorem Part.rangeHigh_holdsPrompt (p : Part) (f : FixtureIx) (n : Nat) :
    ((p.rangeHigh f).fx f).HoldsPrompt n ↔ (p.fx f).HoldsPrompt n := by
  unfold Part.rangeHigh
  split
  · unfold Part.changeRange
    rw [Part.clearBelow_holdsPrompt, Part.modConv_fx, Part.modSupply_fx]
    rfl
  · rfl

/-! ## Bursts and lends -/

theorem Part.startConverting_keeps (p : Part) : p.Keeps p.startConverting := by
  refine Part.modConv_keeps_of_same (fun h => ?_) ?_
  · simp [h]
  · split <;> rfl

theorem Part.beginBurst_keeps {p : Part} (h : p.lend.matrix.code ≠ 2) (r : Requester) (i : ConvInput) (n : Nat) (plan : SettlePlan) :
    p.Keeps (p.beginBurst r i n plan) := by
  unfold Part.beginBurst
  cases plan with
  | fixed us => exact Part.modConv_keeps (fun _ => .inr h) id
  | ready => exact Part.modConv_keeps (fun _ => .inr h) id
  | none => exact .trans (Part.modConv_keeps (fun _ => .inr h) id) (Part.startConverting_keeps _)

theorem Part.tryBurst_keeps (p : Part) : p.Keeps p.tryBurst := by
  unfold Part.tryBurst
  split
  · rename_i h
    simp only [Bool.and_eq_true, decide_eq_true_eq] at h
    have hm : p.lend.matrix.code ≠ 2 := by rw [h.2]; decide
    split
    · exact Part.beginBurst_keeps hm _ _ _ _
    · split
      · exact .refl p
      · dsimp only
        split
        · refine .trans (q := p.modConv _) (Part.modConv_keeps_of_same ?_ ?_) (Part.beginBurst_keeps ?_ _ _ _ _)
          · exact id
          · rfl
          · exact hm
        · exact Part.beginBurst_keeps hm _ _ _ _
  · exact .refl p

theorem Part.raiseRequest_keeps (p : Part) (f : FixtureIx) (k : ConvKind) (n : Nat) : p.Keeps (p.raiseRequest f k n) :=
  .trans (Part.modConv_keeps_of_same id rfl) (Part.tryBurst_keeps _)

theorem Part.grantLend_keeps {p : Part} (h : p.conv.burst = none) (s : LendSource) (n : Nat) : p.Keeps (p.grantLend s n) :=
  .trans (Part.modLend_keeps fun _ => .inr h) (Part.post_keeps _ _)

theorem Part.afterBurst_keeps {p : Part} (h : p.conv.burst = none) : p.Keeps p.afterBurst := by
  unfold Part.afterBurst
  split
  · exact Part.grantLend_keeps h _ _
  · exact p.tryBurst_keeps

theorem Part.dropBurst_keeps (p : Part) : p.Keeps p.dropBurst := Part.modConv_keeps_of_same (fun _ => rfl) rfl

theorem Part.withdraw_keeps (p : Part) (f : FixtureIx) : p.Keeps (p.withdraw f) := by
  have hq : p.Keeps (p.modConv fun v => v.setReq f none) := Part.modConv_keeps_of_same id rfl
  unfold Part.withdraw
  dsimp only
  split
  · exact hq
  · rename_i b hb
    refine .ite (fun _ => ?_) fun _ => hq
    split
    · exact (hq.trans (Part.dropBurst_keeps _)).trans (Part.afterBurst_keeps rfl)
    · exact hq.trans (Part.modConv_keeps_of_same (fun h => by rw [hb] at h; cases h) rfl)

theorem Part.lendRequest_keeps (p : Part) (s : LendSource) (n : Nat) : p.Keeps (p.lendRequest s n) :=
  .ite (fun h => Part.grantLend_keeps (by simpa using h) s n) fun _ => Part.modLend_keeps fun h => by simp [Matrix.code] at h

theorem Part.endLend_keeps (p : Part) (k : MatrixEvent) (s : LendSource) (t : Nat) : p.Keeps (p.endLend k s t) := by
  unfold Part.endLend
  dsimp only
  refine .trans (.trans (.trans (.trans (Part.modLend_keeps fun h => ?_) (Part.post_keeps _ _))
    (Part.modConv_keeps_of_same id rfl)) (.each (fun f p => Part.clearBelow_keeps p f) _ _)) (Part.tryBurst_keeps _)
  simp [Matrix.code] at h

/-! ## Supplies -/

/-- A supply enters a state: a live one from a live one or for a driven run under a rack that is not cut off, and only ON from ON on the
LOW range. -/
theorem Part.enterSupply_keeps {p : Part} {f : FixtureIx} {st : SupplyState}
    (hl : st = .ramp ∨ st = .on ∨ st = .limit → (p.fx f).supply.live = true ∨ (p.Driven f ∧ p.rack.level ≠ .cutoff))
    (hr : (p.fx f).supply.state = .on → (p.fx f).supply.range = .high) : p.Keeps (p.enterSupply f st) := by
  refine Part.modSupply_keeps (fun h => hl ?_) fun h hlow => ?_
  · simpa [Supply.live, or_assoc] using h
  · have := (h hlow).1
    rw [show (p.fx f).supply.range = .low from hlow] at hr
    exact absurd (hr this) (by simp)

theorem Part.endDischarge_keeps (p : Part) (f : FixtureIx) : p.Keeps (p.endDischarge f) := by
  refine .ite (fun h => ?_) fun _ => .refl p
  have he : ∀ st : SupplyState, st = .off ∨ st = .tripped → p.Keeps (p.enterSupply f st) := fun st hs =>
    Part.enterSupply_keeps (by rcases hs with rfl | rfl <;> simp) (by simp [h.1])
  exact .ite (fun _ => he _ (.inl rfl)) fun _ => (he _ (.inr rfl)).trans (Part.modSupply_keeps_of_same rfl rfl)

theorem Part.disconnect_keeps (p : Part) (f : FixtureIx) (r : TripReason) : p.Keeps (p.disconnect f r) := by
  obtain ⟨_, hr, _, e⟩ := p.disconnect_eq f r
  rw [e]
  refine .trans (.trans (p.rangeHigh_keeps f) (Part.clearBelow_keeps _ f)) (Part.modSupply_keeps ?_ ?_)
  · intro h
    simp only [Supply.live] at h
    split at h
    · split at h <;> simp at h
    · simp at h
  · intro _ hl
    simp only [hr] at hl
    exact absurd hl (by simp)

/-! ## The end of a run -/

theorem Run.isOpen_iff {u : Run} : u.isOpen = true ↔ u.state = .active ∨ u.state = .closing := by simp [Run.isOpen]

theorem Part.endRun_keeps (p : Part) (f : FixtureIx) : p.Keeps (p.endRun f) := by
  refine .ite (fun h => .trans (Part.FixtureKeeps.keeps ?_) (Part.postRunState_keeps _ f)) fun _ => .refl p
  have hopen : (p.fx f).run.isOpen = false := by simp [Run.isOpen, h.1]
  refine ⟨⟨id, id, fun hr => ?_, fun _ hp => ?_, .inl, fun _ => .inl, id⟩, ?_, rfl, rfl⟩
  · have := hr f
    rw [hopen] at this
    exact ⟨fun l => absurd (this.1 l) nofun, fun i => absurd (this.2.1 i) nofun, fun c b s => absurd (this.2.2 c b s) nofun⟩
  · refine ⟨by simp [Port.shut, Run.isOpen], by simp [Port.shut], fun hne => ?_⟩
    have := hp.1.mp (hp.2.2 hne)
    simp [hopen] at this
  · simp [Run.isOpen]

theorem Part.cutSupply_keeps (p : Part) (f : FixtureIx) : p.Keeps (p.cutSupply f) :=
  .ite (fun _ => (p.disconnect_keeps f .none).trans (Part.endRun_keeps _ f)) fun _ => .refl p

/-! ## The end of a step -/

/-- What a step has set going is undone: no LOW range is left to a QUIESCENT step, and no NORMAL entry to a PROMPT step. -/
theorem Part.releaseStep_undone (p : Part) (f : FixtureIx) :
    (((p.releaseStep f).fx f).RangeOk → ((p.releaseStep f).fx f).supply.range = .high ∨ (p.fx f).inflight = none) ∧
      ∀ n, ((p.releaseStep f).fx f).HoldsPrompt n →
        ∀ e ∈ ((p.releaseStep f).con (consoleFor f)).entries, e.owner = f → e.isSafety = true := by
  cases hi : (p.fx f).inflight with
  | none => simp [Part.releaseStep, hi, Fixture.HoldsPrompt]
  | some i =>
    have high : ∀ {x : Fixture}, x.inflight = some i → (∀ last since due, i.progress ≠ .quiescent last since due) → x.RangeOk →
        x.supply.range = .high := by
      intro x hx hn hr
      cases hl : x.supply.range with
      | high => rfl
      | low =>
        obtain ⟨_, j, last, since, due, hj, hj'⟩ := hr hl
        obtain rfl : i = j := Option.some.inj (hx.symm.trans hj)
        exact absurd hj' (hn _ _ _)
    have other : ∀ {x : Fixture} {n : Nat}, x.inflight = some i → (∀ n, i.progress ≠ .prompt n) → ¬ x.HoldsPrompt n := by
      intro x n hx hn ⟨j, hj, hj'⟩
      obtain rfl : i = j := Option.some.inj (hx.symm.trans hj)
      exact hn n hj'
    unfold Part.releaseStep
    rw [hi]
    dsimp only
    cases hpr : i.progress with
    | plain => exact ⟨fun h => .inl (high hi (by simp [hpr]) h), fun n h => absurd h (other hi (by simp [hpr]))⟩
    | frameField pr => exact ⟨fun h => .inl (high hi (by simp [hpr]) h), fun n h => absurd h (other hi (by simp [hpr]))⟩
    | quiescent last since due =>
      refine ⟨fun _ => .inl (Part.rangeHigh_range _ f), fun n h => ?_⟩
      rw [Part.rangeHigh_holdsPrompt, (p.withdraw_only f).1.fx] at h
      exact absurd h (other hi (by simp [hpr]))
    | analog pr taken =>
      dsimp only
      rw [(p.withdraw_only f).1.fx]
      exact ⟨fun h => .inl (high hi (by simp [hpr]) h), fun n h => absurd h (other hi (by simp [hpr]))⟩
    | timing pr =>
      simp only [Part.modFx_fx]
      exact ⟨fun h => .inl (high (x := { p.fx f with capture := _ }) hi (by simp [hpr]) h),
        fun n h => absurd h (other (x := { p.fx f with capture := _ }) hi (by simp [hpr]))⟩
    | prompt n =>
      simp only [Part.removeNormal, Part.modCon_fx, Part.modCon_con]
      refine ⟨fun h => .inl (high hi (by simp [hpr]) h), fun _ _ e he ho => ?_⟩
      have := (List.mem_filter.mp he).2
      simpa [ho] using this

theorem Part.releaseStep_keeps (p : Part) (f : FixtureIx) : p.Keeps (p.releaseStep f) := by
  unfold Part.releaseStep
  split
  · exact .refl p
  · split
    · exact .refl p
    · exact .refl p
    · exact (p.withdraw_keeps f).trans (Part.rangeHigh_keeps _ f)
    · exact p.withdraw_keeps f
    · exact p.modCapture_keeps f _
    · exact p.removeNormal_keeps f

theorem Verdict.code_le_max (v w : Verdict) : v.code ≤ (v.max w).code ∧ w.code ≤ (v.max w).code := by
  cases v <;> cases w <;> decide

theorem Part.finishStep_keeps (p : Part) (f : FixtureIx) (e : StepEnd) : p.Keeps (p.finishStep f e) := by
  cases hi : (p.fx f).inflight with
  | none => exact .of_eq (Part.finishStep_none hi e)
  | some i =>
    rw [Part.finishStep_some hi]
    refine (p.releaseStep_keeps f).trans (Part.FixtureKeeps.keeps ?_)
    obtain ⟨hr, hp⟩ := p.releaseStep_undone f
    have hs : ((p.releaseStep f).fx f).inflight.isSome = true := by rw [(p.releaseStep_released f).present, hi]; rfl
    have hres : ((p.releaseStep f).resultOf f i e).verdict = e.verdict := rfl
    generalize (p.releaseStep f).resultOf f i e = res at hres ⊢
    generalize p.releaseStep f = q at *
    refine ⟨⟨fun h => ?_, fun h hl => ?_, fun h => ⟨(h f).1, fun _ => (h f).2.1 hs, (h f).2.2⟩, fun _ => id, .inl,
      fun n hn => .inr (hp n hn), fun h => ⟨fun r hr => ?_, h.2⟩⟩, id, rfl, rfl⟩
    · obtain ⟨h1, h2⟩ := h
      rw [if_pos hs] at h1
      exact ⟨by simpa using h1, h2⟩
    · rcases hr h with h' | h'
      · rw [show (q.fx f).supply.range = .low from hl] at h'
        exact absurd h' (by simp)
      · simp [hi] at h'
    · have hm := Verdict.code_le_max (q.fx f).run.verdict e.verdict
      rcases List.mem_append.mp hr with hr | hr
      · exact (h.1 r hr).trans hm.1
      · obtain rfl := List.mem_singleton.mp hr
        exact hres ▸ hm.2

/-! ## Entry to HALTING -/

theorem Part.dropQueue_keeps (p : Part) (f : FixtureIx) : p.Keeps (p.modFx f Fixture.dropQueue) := by
  refine Part.FixtureKeeps.keeps ⟨⟨fun ⟨h1, _, h3⟩ => ⟨h1, by simp [Fixture.dropQueue], h3⟩, id, fun h => h f, fun _ => id, .inl,
    fun _ => .inl, fun h => ⟨h.1, fun _ => rfl⟩⟩, id, rfl, rfl⟩

theorem Channel.halted_defn (ch : Channel) : ch.halted.defn = ch.defn := by unfold Channel.halted; split <;> rfl

/-- A halted channel neither plays nor starves. -/
theorem Channel.halted_state (ch : Channel) : ch.halted.state ≠ .playing ∧ ch.halted.state ≠ .starved := by
  unfold Channel.halted
  split
  · simp
  · rename_i h; simpa [not_or] using h

theorem Part.stopChannels_ch (p : Part) (f : FixtureIx) (c : ChannelIx) :
    (p.stopChannels f).ch c = if (p.ch c).boundTo f then (p.ch c).halted else p.ch c := by
  simp only [Part.stopChannels, Part.ch, getElem_mapEntries]
  rfl

theorem Part.stopChannels_keeps (p : Part) (f : FixtureIx) : p.Keeps (p.stopChannels f) where
  store := id
  capacity := id
  lend := id
  range := id
  run := fun h g => by
    obtain ⟨h1, h2, h3⟩ := h g
    refine ⟨h1, h2, fun c hb hs => ?_⟩
    rw [Part.stopChannels_ch] at hb hs
    split at hs
    · exact absurd hs (not_or.mpr (Channel.halted_state _))
    · rw [if_neg ‹_›] at hb
      exact h3 c hb hs
  port := fun _ => id
  rack := id
  prompt := id
  verdict := id
  held := .of_link rfl
  guarded := ⟨rfl, fun _ => id, fun _ => rfl, fun _ => rfl, fun _ => rfl⟩

/-- The laws of the stores, the lends and the ranges that `p` meets `q` meets too, and the link is held. Entry to HALTING keeps these
operation by operation, and the others, which do not hold between its operations, as a whole. -/
structure Part.KeepsStores (p q : Part) : Prop where
  store : p.StoreLaw → q.StoreLaw
  capacity : p.CapacityLaw → q.CapacityLaw
  lend : p.LendLaw → q.LendLaw
  range : p.RangeLaw → q.RangeLaw
  held : p.Held q

theorem Part.Keeps.stores {p q : Part} (h : p.Keeps q) : p.KeepsStores q := ⟨h.store, h.capacity, h.lend, h.range, h.held⟩

theorem Part.KeepsStores.trans {p q r : Part} (h : p.KeepsStores q) (k : q.KeepsStores r) : p.KeepsStores r :=
  ⟨k.store ∘ h.store, k.capacity ∘ h.capacity, k.lend ∘ h.lend, k.range ∘ h.range, h.held.trans k.held⟩

theorem Part.modFx_keepsStores {p : Part} {f : FixtureIx} {g : Fixture → Fixture} (hc : (p.fx f).Capacity → (g (p.fx f)).Capacity)
    (hr : (p.fx f).RangeOk → (g (p.fx f)).RangeOk) : p.KeepsStores (p.modFx f g) where
  store := id
  capacity := fun h => Part.forall_modFx (P := fun _ x => x.Capacity) h (hc (h f))
  lend := id
  range := fun h => Part.forall_modFx (P := fun _ x => x.RangeOk) h (hr (h f))
  held := .of_link rfl

theorem Part.enterHalting_keepsStores (p : Part) (f : FixtureIx) (r : HaltReason) : p.KeepsStores (p.enterHalting f r) := by
  have hflush : ∀ q : Part, q.KeepsStores (q.modPort f Port.flush) := fun q =>
    Part.modFx_keepsStores (fun ⟨h1, h2, _⟩ => ⟨h1, h2, by simp [Port.flush]⟩) id
  have hrun : ∀ (q : Part) (g : Run → Run), q.KeepsStores (q.modRun f g) := fun q g => Part.modFx_keepsStores id id
  unfold Part.enterHalting
  dsimp only
  exact (((((((((((p.finishStep_keeps f _).trans (Part.dropQueue_keeps _ f)).trans (Part.removeNormal_keeps _ f)).trans
    (Part.stopChannels_keeps _ f)).trans (Part.withdraw_keeps _ f)).trans (Part.outputDefaults_keeps _ f)).stores.trans
    (hflush _)).trans (Part.cutSupply_keeps _ f).stores).trans (hrun _ _)).trans (Part.postRunState_keeps _ f).stores).trans
    (Part.endRun_keeps _ f).stores)

/-- The supply after entry to HALTING is not live. -/
theorem Part.Halted.notLive {f : FixtureIx} {r : HaltReason} {p q : Part} (h : p.Halted f r q) : (q.fx f).supply.live = false := by
  cases hl : (p.fx f).supply.live with
  | true =>
    rw [h.supplyCut hl]
    simp only [Supply.live]
    split <;> simp
  | false => rw [← hl, ← h.supplyKept hl]; rfl

theorem Part.Halted.notOpen {f : FixtureIx} {r : HaltReason} {p q : Part} (h : p.Halted f r q) : (q.fx f).run.isOpen = false := by
  simp only [Run.isOpen, h.state]
  split <;> simp

/-- No channel bound to a halted fixture plays on, and no channel starts. -/
theorem Part.Halted.channel {f : FixtureIx} {r : HaltReason} {p q : Part} (h : p.Halted f r q) (c : ChannelIx)
    (hs : (q.ch c).state = .playing ∨ (q.ch c).state = .starved) : q.ch c = p.ch c ∧ (p.ch c).boundTo f = false := by
  cases hb : (p.ch c).boundTo f with
  | false => exact ⟨h.unbound c (.inl hb), rfl⟩
  | true =>
    by_cases hp : (p.ch c).state = .playing ∨ (p.ch c).state = .starved
    · rw [h.bound c hb hp] at hs; simp at hs
    · rw [h.unbound c (.inr (not_or.mp hp))] at hs; exact absurd hs hp

theorem Part.enterHalting_keeps {p : Part} {f : FixtureIx} (h : (p.fx f).run.isOpen = true) (r : HaltReason) :
    p.Keeps (p.enterHalting f r) := by
  obtain ⟨h1, h2, h3, h4, h5⟩ := p.enterHalting_keepsStores f r
  have H := Part.enterHalting_halted h r
  generalize p.enterHalting f r = q at *
  have hrest := H.rest
  have hrack : q.rack = p.rack := (congrArg Part.rack hrest :)
  have hfit : q.fitted = p.fitted := (congrArg Part.fitted hrest :)
  have hfx : ∀ {P : FixtureIx → Fixture → Prop}, (∀ g, P g (p.fx g)) → P f (q.fx f) → ∀ g, P g (q.fx g) := by
    intro P hp hf g
    by_cases e : g = f
    · exact e ▸ hf
    · rw [H.others g e]; exact hp g
  have hcon : ∀ k, (q.con k).nextId = (p.con k).nextId ∧ (q.con k).stopLevel = (p.con k).stopLevel ∧
      (q.con k).entries.Sublist (p.con k).entries ∧
      ∀ e ∈ (q.con k).entries, consoleFor e.owner = k → e.owner = f → e.isSafety = true := by
    intro k
    by_cases hk : k = consoleFor f
    · subst hk
      rw [H.console.1]
      refine ⟨rfl, rfl, List.filter_sublist, fun e he _ ho => ?_⟩
      simpa [ho] using (List.mem_filter.mp he).2
    · rw [H.console.2 k hk]
      exact ⟨rfl, rfl, List.Sublist.refl _, fun e _ hc ho => absurd (ho ▸ hc.symm) hk⟩
  refine ⟨⟨h1, h2, h3, h4, fun hr g => ?_, fun _ hp => ?_, fun hrk hcut => ?_, fun hp => ?_, fun hv => ?_⟩, h5, hfit, ?_, ?_, ?_, ?_⟩
  case refine_1 =>
    by_cases e : g = f
    · subst e
      refine ⟨by simp [H.notLive], by simp [H.steps.2.1], fun c hb hs => ?_⟩
      obtain ⟨e, hn⟩ := H.channel c hs
      rw [e, hn] at hb
      cases hb
    · rw [H.others g e]
      refine ⟨(hr g).1, (hr g).2.1, fun c hb hs => ?_⟩
      have e := (H.channel c hs).1
      rw [e] at hb hs
      exact (hr g).2.2 c hb hs
  case refine_2 =>
    refine hfx (P := fun _ x => x.PortOk) hp ?_
    obtain ⟨hq, hst, _⟩ := H.port
    refine ⟨?_, ?_, fun hne => absurd hq hne⟩ <;> rw [hst] <;> simp only [Run.isOpen, H.state]
    · split <;> simp
    · split <;> simp
  case refine_3 => exact hfx (P := fun _ x => x.supply.live = false) (hrk (hrack ▸ hcut)) H.notLive
  case refine_4 =>
    rw [Part.promptLaw_iff] at hp ⊢
    intro k
    obtain ⟨hid, _, hsub, hno⟩ := hcon k
    refine ⟨hid ▸ (hp k).1.sublist hsub, fun e he hs => ?_⟩
    have ho : e.owner ≠ f := fun ho => by
      have := hno e he ((hp k).1.2.1 e (hsub.subset he)).2 ho
      simp [this] at hs
    rw [H.others _ ho]
    exact (hp k).2 e (hsub.subset he) hs
  case refine_5 =>
    refine hfx (P := fun _ x => x.VerdictOk) hv ⟨fun rec hrec => ?_, fun _ => H.steps.1⟩
    rw [H.verdict]
    rw [H.log] at hrec
    have hm := Verdict.code_le_max (p.fx f).run.verdict .incomplete
    cases hi : (p.fx f).inflight with
    | none =>
      simp only [hi, List.append_nil] at hrec
      have := (hv f).1 rec hrec
      split
      · exact this
      · exact this.trans hm.1
    | some i =>
      rw [if_neg (by simp)]
      simp only [hi] at hrec
      rcases List.mem_append.mp hrec with hrec | hrec
      · exact ((hv f).1 rec hrec).trans hm.1
      · obtain rfl := List.mem_singleton.mp hrec
        exact hm.2
  case refine_6 => exact hfx (P := fun g x => x.run.isOpen = true → (p.fx g).run.isOpen = true) (fun _ => id) (fun _ => h)
  case refine_7 => exact hfx (P := fun g x => x.sense.presence = (p.fx g).sense.presence) (fun _ => rfl) (by rw [H.sense.1])
  case refine_8 => exact hfx (P := fun g x => x.sense.lid = (p.fx g).sense.lid) (fun _ => rfl) (by rw [H.sense.1])
  case refine_9 => exact fun k => (hcon k).2.1

theorem Part.haltRequest_keeps (p : Part) (f : FixtureIx) (r : HaltReason) : p.Keeps (p.haltRequest f r) :=
  .ite (fun h => Part.enterHalting_keeps h r) fun _ => .refl p

theorem Part.tripSupply_keeps (p : Part) (f : FixtureIx) (r : TripReason) : p.Keeps (p.tripSupply f r) :=
  ((((p.disconnect_keeps f r).trans (Part.postSupplyEvent_keeps _ f _)).trans (Part.giveSafety_keeps _ f _)).trans
    (Part.haltRequest_keeps _ f _)).trans (Part.endRun_keeps _ f)

theorem Part.dischargeFailed_keeps {p : Part} {f : FixtureIx} (h : (p.fx f).supply.state = .discharge) :
    p.Keeps (p.dischargeFailed f) := by
  unfold Part.dischargeFailed
  dsimp only
  refine .trans (.trans (.trans (.trans (.trans (Part.enterSupply_keeps (by simp) (by simp [h])) (Part.modSupply_keeps_of_same rfl rfl))
    (.ite (fun _ => (Part.postSupplyEvent_keeps _ f _).trans (Part.giveSafety_keeps _ f _)) fun _ => .refl _))
    ((Part.postSupplyEvent_keeps _ f _).trans (Part.giveSafety_keeps _ f _)))
    (.ite (fun _ => Part.haltRequest_keeps _ f _) fun _ => .refl _)) (Part.endRun_keeps _ f)

/-! ## The failure policy -/

theorem Part.skip_keeps (p : Part) (f : FixtureIx) : p.Keeps (p.modFx f Fixture.skip) := by
  refine Part.FixtureKeeps.keeps ?_
  unfold Fixture.skip
  split
  · rename_i hm
    refine ⟨⟨fun ⟨h1, h2, h3⟩ => ⟨h1, ?_, h3⟩, id, fun h => h f, fun _ => id, .inl, fun _ => .inl, fun h => ⟨h.1, fun hs => ?_⟩⟩, id,
      rfl, rfl⟩
    · have := (List.dropWhile_sublist (l := (p.fx f).queue) (fun s => !s.isMark)).length_le
      simp only [List.length_tail]
      omega
    · simp [h.2 hs] at hm
  · exact ⟨⟨fun ⟨h1, h2, h3⟩ => ⟨h1, by simp, h3⟩, id, fun h => h f, fun _ => id, .inl, fun _ => .inl, fun h => ⟨h.1, fun _ => rfl⟩⟩,
      id, rfl, rfl⟩

theorem Part.applyPolicy_keeps (p : Part) (f : FixtureIx) (v : Verdict) : p.Keeps (p.applyPolicy f v) := by
  refine .ite (fun h => ?_) fun _ => .refl p
  split
  · exact .refl p
  · exact p.skip_keeps f
  · exact Part.enterHalting_keeps h.2 _

theorem Part.closeStep_keeps (p : Part) (f : FixtureIx) (e : StepEnd) : p.Keeps (p.closeStep f e) := by
  unfold Part.closeStep
  split
  · exact .refl p
  · exact (p.finishStep_keeps f e).trans (Part.applyPolicy_keeps _ f _)

end Sys2Proof.Machine
end

section
/-! PROOFS. The laws of the part are kept by the channels, the records, the step queue and the readings of the converter. -/

namespace Sys2Proof.Machine

open Sys2Proof

/-! ## Channels (section 4.2) -/

theorem Part.postChannel_ch (p : Part) (c : ChannelIx) (k : ChannelEvent) (bk : Option Bank) (d : ChannelIx) :
    (p.postChannel c k bk).ch d = p.ch d := by
  unfold Part.postChannel; split <;> rfl

theorem Part.startChannel_keeps {p : Part} {c : ChannelIx} (h : ∀ f, (p.ch c).boundTo f = true → p.Driven f) :
    p.Keeps (p.startChannel c) := by
  unfold Part.startChannel
  split
  · exact .refl p
  · refine .ite (fun _ => .trans (Part.modCh_keeps fun f hb _ => h f hb) (Part.postChannel_keeps _ _ _ _)) fun _ =>
      Part.modCh_keeps fun f hb _ => h f ?_
    revert hb
    unfold Channel.setReady
    split <;> exact id

theorem Part.channelDone_keeps (p : Part) (c : ChannelIx) (bk : Bank) : p.Keeps (p.channelDone c bk) :=
  .trans (Part.modCh_keeps_of_stopped (by simp)) (Part.postChannel_keeps _ _ _ _)

theorem Channel.setReady_defn (ch : Channel) (bk : Bank) (v : Bool) : (ch.setReady bk v).defn = ch.defn := by cases bk <;> rfl

theorem Channel.setReady_state (ch : Channel) (bk : Bank) (v : Bool) : (ch.setReady bk v).state = ch.state := by cases bk <;> rfl

/-- The end of a bank of a channel that plays keeps the laws. -/
theorem Part.bankEnd_keeps {p : Part} {c : ChannelIx} (h : (p.ch c).state = .playing) : p.Keeps (p.bankEnd c) := by
  unfold Part.bankEnd
  split
  · rename_i d bk _ _
    dsimp only
    have h1 : p.Keeps (p.modCh c fun ch => { ch with passes := if d.mode = .once then 1 else sat16 (ch.passes + 1) }) :=
      Part.modCh_keeps_of_same rfl rfl
    have s1 : ((p.modCh c fun ch => { ch with passes := if d.mode = .once then 1 else sat16 (ch.passes + 1) }).ch c).state =
        .playing := by rw [Part.modCh_ch]; exact h
    generalize p.modCh c (fun ch => { ch with passes := if d.mode = .once then 1 else sat16 (ch.passes + 1) }) = q at h1 s1 ⊢
    have h2 : p.Keeps (if d.endNotice = true then q.postChannel c .endOfBank (some bk) else q) :=
      h1.trans (.ite (fun _ => Part.postChannel_keeps _ _ _ _) fun _ => .refl _)
    have s2 : ((if d.endNotice = true then q.postChannel c .endOfBank (some bk) else q).ch c).state = .playing := by
      split
      · rw [Part.postChannel_ch]; exact s1
      · exact s1
    generalize (if d.endNotice = true then q.postChannel c .endOfBank (some bk) else q) = r at h2 s2 ⊢
    refine h2.trans ?_
    split
    · exact r.channelDone_keeps c bk
    · exact .ite (fun _ => r.channelDone_keeps c bk) fun _ => Part.modCh_keeps_of_playing (.inl s2) rfl
    · exact .ite
        (fun _ => .trans (Part.modCh_keeps_of_playing (.inl s2) (Channel.setReady_defn _ _ _)) (Part.postChannel_keeps _ _ _ _))
        fun _ => .trans (Part.modCh_keeps_of_playing (.inl s2) rfl) (Part.postChannel_keeps _ _ _ _)
  · exact .refl p

theorem Part.dwellDone_keeps {p : Part} {c : ChannelIx} (h : (p.ch c).state = .playing) : p.Keeps (p.dwellDone c) :=
  .ite (fun _ => Part.modCh_keeps_of_same rfl rfl) fun _ => Part.bankEnd_keeps h

theorem Part.channelApplied_keeps {p : Part} {c : ChannelIx} (h : (p.ch c).state = .playing) (d : ChannelDef) (n : Nat) :
    p.Keeps (p.channelApplied c d n) := by
  unfold Part.channelApplied
  dsimp only
  refine .trans (.trans (Part.modCh_keeps_of_same rfl rfl) (.ite (fun _ => Part.postChannel_keeps _ _ _ _) fun _ => .refl _))
    (.ite (fun _ => Part.dwellDone_keeps ?_) fun _ => .refl _)
  split
  · rw [Part.postChannel_ch, Part.modCh_ch]; exact h
  · rw [Part.modCh_ch]; exact h

theorem Part.channelFaulted_keeps (p : Part) (c : ChannelIx) (r : FaultReason) : p.Keeps (p.channelFaulted c r) :=
  .trans (Part.modCh_keeps_of_stopped (by simp)) (Part.postChannel_keeps _ _ _ _)

/-! ## Records at their targets (sections 3.2 and 6.3) -/

theorem Part.used_keeps (p : Part) : p.Keeps p.used := Part.SameSeen.keeps {} rfl rfl fun _ => rfl

theorem Part.moveSetpoint_keeps (p : Part) (f : FixtureIx) (mv : Nat) : p.Keeps (p.moveSetpoint f mv) := by
  have put : ∀ (q : Part) (b : Bool), q.Keeps (q.modSupply f fun s => { s with setpoint := mv, inRegulation := b }) :=
    fun q b => Part.modSupply_keeps_of_same rfl rfl
  unfold Part.moveSetpoint
  dsimp only
  exact .ite (fun _ => put _ _) fun _ => .ite (fun _ => .refl p) fun _ => .ite (fun _ => put _ _) fun _ => .ite (fun _ => put _ _)
    fun _ => p.used_keeps.trans (put _ _)

theorem Part.supplyOn_keeps {p : Part} {f : FixtureIx} (h : p.Driven f) : p.Keeps (p.supplyOn f).1 := by
  have ramp : ∀ b : Supply → Bool, (p.fx f).supply.state ≠ .on → p.rack.level = .normal →
      p.Keeps ((p.enterSupply f .ramp).modSupply f fun s => { s with inRegulation := b s }) := fun b hs hr =>
    .trans (Part.enterSupply_keeps (fun _ => .inr ⟨h, by simp [hr]⟩) fun ho => absurd ho hs) (Part.modSupply_keeps_of_same rfl rfl)
  unfold Part.supplyOn
  dsimp only
  split
  · rename_i hs
    split
    · dsimp only; exact ramp _ (by simp [hs]) ‹_›
    · exact .refl p
  · split
    · rename_i hs
      split
      · dsimp only; exact ramp _ (by simp [hs.1]) ‹_›
      · exact .refl p
    · exact .refl p

theorem Part.supplyOff_keeps (p : Part) (f : FixtureIx) : p.Keeps (p.supplyOff f).1 := by
  unfold Part.supplyOff
  split
  · exact p.disconnect_keeps f .none
  · exact .refl p

theorem Part.supplyLimit_keeps (p : Part) (f : FixtureIx) (ma ms slew : Nat) : p.Keeps (p.supplyLimit f ma ms slew).1 := by
  unfold Part.supplyLimit
  dsimp only
  apply Part.modSupply_keeps_of_same <;> rfl

theorem Part.canTx_keeps {p : Part} {f : FixtureIx} (h : p.Driven f) (id : BitVec 29) (ext : Bool) (len : Nat) (data : List Byte) :
    p.Keeps (p.canTx f id ext len data).1 := by
  unfold Part.canTx
  split
  · rename_i hl
    dsimp only
    refine Part.FixtureKeeps.keeps (p := p) ⟨⟨fun hc => ⟨hc.1, hc.2.1, ?_⟩, fun hr => hr, fun hr => hr f,
      fun hr hp => ⟨hp.1, hp.2.1, fun _ => hp.1.mpr (h.isOpen hr)⟩, .inl, fun _ => .inl, fun hv => hv⟩, fun ho => ho, rfl, rfl⟩
    simp only [List.length_append, List.length_singleton]
    omega
  · exact .refl p

theorem Part.applyRecord_keeps {p : Part} {f : FixtureIx} (h : p.Driven f) (r : List Byte) : p.Keeps (p.applyRecord f r).1 := by
  unfold Part.applyRecord Part.applyTarget
  split
  · exact .refl p
  · dsimp only; exact p.modOuts_keeps f _
  · dsimp only; exact p.modOuts_keeps f _
  · dsimp only; exact p.modOuts_keeps f _
  · dsimp only; exact p.modOuts_keeps f _
  · dsimp only; exact p.modOuts_keeps f _
  · dsimp only; exact p.modOuts_keeps f _
  · dsimp only; exact p.modOuts_keeps f _
  · dsimp only; exact p.modOuts_keeps f _
  · exact Part.canTx_keeps h _ _ _ _
  · exact Part.supplyOn_keeps h
  · exact p.supplyOff_keeps f
  · exact p.moveSetpoint_keeps f _
  · exact p.supplyLimit_keeps f _ _ _

end Sys2Proof.Machine
end

section
/-! PROOFS. The laws of the part are kept by the step queue and the record arbiter. -/

namespace Sys2Proof.Machine

open Sys2Proof

section
variable {rq : Examine} (hrq : ∀ f p, Part.Keeps p (rq f p))
include hrq

/-! ## What ends a step, for any way to examine the next head that keeps the laws -/

theorem Part.endStep_keeps (p : Part) (f : FixtureIx) (e : StepEnd) : p.Keeps (p.endStep rq f e) :=
  .ite (fun _ => (p.closeStep_keeps f e).trans (hrq f _)) fun _ => .refl p

theorem Part.risingEdge_keeps (p : Part) (f : FixtureIx) : p.Keeps (p.risingEdge rq f) := by
  unfold Part.risingEdge
  dsimp only
  split
  · exact .refl p
  · exact p.modCapture_keeps f _
  · refine (p.modCapture_keeps f _).trans (.ite (fun _ => Part.endStep_keeps hrq _ f _) fun _ => .ite (fun _ => ?_) fun _ => .refl _)
    split
    · split
      · split
        · exact Part.endStep_keeps hrq _ f _
        · exact .refl _
      · exact .refl _
    · exact .refl _

theorem Part.lineReaction_keeps (p : Part) (f : FixtureIx) (o : Outputs) : p.Keeps (p.lineReaction rq f o) := by
  have fin : ∀ e, p.Keeps (p.endStep rq f e) := p.endStep_keeps hrq f
  unfold Part.lineReaction
  dsimp only
  split
  · exact .ite (fun _ => fin _) fun _ => .ite (fun _ => fin _) fun _ => .refl p
  · exact .ite (fun _ => .refl p) fun _ => .ite (fun _ => fin _) fun _ => .ite (fun _ => p.risingEdge_keeps hrq f) fun _ => .refl p

omit hrq in
theorem Part.enterLimit_keeps {p : Part} {f : FixtureIx} (h : (p.fx f).supply.live = true) : p.Keeps (p.enterLimit f) := by
  have hr := (p.rangeHigh_released f).trans (Part.clearBelow_released _ f)
  have hrange := (p.disconnect_eq f .none).2.1
  refine ((p.rangeHigh_keeps f).trans (Part.clearBelow_keeps _ f)).trans (Part.enterSupply_keeps (fun _ => .inl ?_) fun _ => hrange)
  rw [hr.fx_eq]
  exact h

/-- A supply that enters ON from a live state keeps the laws. -/
theorem Part.backToOn_keeps {p : Part} {f : FixtureIx} (h : (p.fx f).supply.state = .limit) : p.Keeps (p.backToOn rq f) := by
  unfold Part.backToOn
  dsimp only
  refine .trans (.trans (Part.enterSupply_keeps (fun _ => .inl ?_) (by simp [h])) (Part.modSupply_keeps_of_same rfl rfl))
    (.ite (fun _ => Part.endStep_keeps hrq _ f _) fun _ => .refl _)
  simp [Supply.live, h]

theorem Part.enterOn_keeps {p : Part} {f : FixtureIx} (h : (p.fx f).supply.state = .ramp) : p.Keeps (p.enterOn rq f) := by
  unfold Part.enterOn
  dsimp only
  refine .trans (.trans (.trans (Part.enterSupply_keeps (fun _ => .inl ?_) (by simp [h])) (Part.modSupply_keeps_of_same rfl rfl))
    (.ite (fun _ => Part.enterLimit_keeps ?_) fun _ => .refl _)) (.ite (fun _ => Part.endStep_keeps hrq _ f _) fun _ => .refl _)
  · simp [Supply.live, h]
  · simp [Part.enterSupply, Supply.live]

theorem Part.afterLimits_keeps (p : Part) (f : FixtureIx) (old : Nat) : p.Keeps (p.afterLimits rq f old) := by
  unfold Part.afterLimits
  dsimp only
  split
  · exact .ite (fun _ => Part.modSupply_keeps_of_same rfl rfl) fun _ =>
      .ite (fun _ => p.used_keeps.trans (Part.modSupply_keeps_of_same rfl rfl)) fun _ => .refl p
  · rename_i hs
    refine .ite (fun _ => .ite (fun _ => (p.used_keeps.trans (Part.modSupply_keeps_of_same rfl rfl)).trans
      (Part.enterLimit_keeps ?_)) fun _ => p.used_keeps) fun _ => .refl p
    simp [Supply.live, hs]
  · rename_i hs
    have back : ∀ q : Part, (q.fx f).supply.state = .limit → q.Keeps (q.backToOn rq f) := fun q => Part.backToOn_keeps hrq
    exact .ite (fun _ => .ite (fun _ => p.used_keeps.trans (back p.used hs)) fun _ => p.used_keeps.trans (Part.tripSupply_keeps _ f _))
      fun _ => .ite (fun _ => back p hs) fun _ => .ite (fun _ => p.tripSupply_keeps f _) fun _ => .refl p
  · exact .refl p

theorem Part.follow_keeps (p : Part) (f : FixtureIx) (w : Follow) : p.Keeps (p.follow rq f w) := by
  unfold Part.follow
  split
  · exact .refl p
  · exact p.lineReaction_keeps hrq f _
  · exact .ite (fun h => Part.enterOn_keeps hrq h.1) fun _ => .refl p
  · unfold Part.afterCut
    split
    · split
      · exact p.endStep_keeps hrq f _
      · exact .refl p
    · exact .refl p
  · exact p.afterLimits_keeps hrq f _

theorem Part.channelReport_keeps (p : Part) (c : ChannelIx) : p.Keeps (p.channelReport rq c) := by
  unfold Part.channelReport
  split
  · exact .refl p
  · refine .ite (fun _ => ?_) fun _ => .refl p
    split
    · exact p.endStep_keeps hrq _ _
    · exact p.endStep_keeps hrq _ _
    · exact .refl p

end

/-! ## The start of a step -/

/-- A step in flight makes progress: a QUIESCENT step stays one, and no PROMPT step changes. -/
theorem Part.setProgress_keeps {p : Part} {f : FixtureIx} {i : InFlight} {g : Progress} (hi : (p.fx f).inflight = some i)
    (hq : ∀ last since due, i.progress = .quiescent last since due → ∃ last since due, g = .quiescent last since due)
    (hp : ∀ n, i.progress ≠ .prompt n) : p.Keeps (p.setProgress f g) := by
  refine Part.FixtureKeeps.keeps ?_
  rw [hi]
  exact .of_progress hi hq hp

theorem Channel.boundTo_iff {ch : Channel} {f : FixtureIx} : ch.boundTo f = true ↔ ∃ d, ch.defn = some d ∧ d.fixture = f := by
  unfold Channel.boundTo
  cases ch.defn <;> simp

/-- A channel is bound to one fixture. -/
theorem Channel.boundTo_unique {ch : Channel} {f g : FixtureIx} (h : ch.boundTo f = true) (k : ch.boundTo g = true) : f = g := by
  obtain ⟨d, hd, rfl⟩ := Channel.boundTo_iff.mp h
  obtain ⟨e, he, rfl⟩ := Channel.boundTo_iff.mp k
  rw [Option.some.inj (hd.symm.trans he)]

theorem Part.beginStart_keeps {p : Part} {f : FixtureIx} (h : (p.fx f).inflight.isSome = true) (c : ChannelIx) :
    p.Keeps (p.beginStart f c) := by
  unfold Part.beginStart
  refine .trans (.ite (fun hv => Part.startChannel_keeps fun g hg => ?_) fun _ => .refl p) (Part.closeStep_keeps _ f _)
  cases hb : (p.ch c).boundTo f with
  | true => exact .inl (Channel.boundTo_unique hb hg ▸ h)
  | false => simp [Part.startOutcome, hb, StepEnd.incomplete] at hv

theorem Part.beginStop_keeps (p : Part) (f : FixtureIx) (c : ChannelIx) : p.Keeps (p.beginStop f c) :=
  .ite (fun _ => .trans (Part.modCh_keeps_of_stopped (Channel.halted_state _)) (Part.closeStep_keeps _ f _))
    fun _ => p.closeStep_keeps f _

/-- The step in flight has just left the queue. -/
def Part.Fresh (p : Part) (f : FixtureIx) : Prop := ∃ i, (p.fx f).inflight = some i ∧ i.progress = .plain

theorem Part.Fresh.setProgress_keeps {p : Part} {f : FixtureIx} (h : p.Fresh f) (g : Progress) : p.Keeps (p.setProgress f g) := by
  obtain ⟨i, hi, hpr⟩ := h
  exact Part.setProgress_keeps hi (by simp [hpr]) (by simp [hpr])

theorem Part.beginWaitFor_keeps {p : Part} {f : FixtureIx} (h : p.Fresh f) (cond : Condition) : p.Keeps (p.beginWaitFor f cond) := by
  have fin : ∀ e, p.Keeps (p.closeStep f e) := p.closeStep_keeps f
  unfold Part.beginWaitFor
  dsimp only
  split
  · refine .ite (fun _ => fin _) fun _ => ?_
    split
    · exact fin _
    · exact fin _
    · exact fin _
    · exact .refl p
    · exact .refl p
  · exact .ite (fun _ => fin _) fun _ => .refl p
  · exact .ite (fun _ => fin _) fun _ => .ite (fun _ => fin _) fun _ => .refl p
  · exact .ite (fun _ => p.modWatch_keeps f _ _) fun _ => fin _
  · exact .ite (fun _ => (h.setProgress_keeps _).trans (Part.raiseRequest_keeps _ f _ _)) fun _ => fin _

theorem Part.beginMeasure_keeps {p : Part} {f : FixtureIx} (h : p.Fresh f) (n : ProbeIx) (k : Nat) : p.Keeps (p.beginMeasure f n k) := by
  have fin : ∀ e, p.Keeps (p.closeStep f e) := p.closeStep_keeps f
  unfold Part.beginMeasure
  split
  · exact fin _
  · refine .ite (fun _ => fin _) fun _ => ?_
    split
    · exact (h.setProgress_keeps _).trans (Part.raiseRequest_keeps _ f _ _)
    · exact .ite (fun _ => (h.setProgress_keeps _).trans (Part.modCapture_keeps _ f _)) fun _ => fin _
    · exact .ite (fun _ => (h.setProgress_keeps _).trans (Part.modWatch_keeps _ f _ _)) fun _ => fin _

theorem Part.beginPrompt_keeps {p : Part} {f : FixtureIx} (h : p.Fresh f) (k : PromptKind) (tag : BitVec 16) (text : List Byte) :
    p.Keeps (p.beginPrompt f k tag text) := by
  refine (h.setProgress_keeps _).trans (Part.addNormal_keeps rfl rfl ?_)
  obtain ⟨i, hi, _⟩ := h
  exact ⟨{ i with progress := .prompt (p.normalEntry f k tag text).id }, by simp [Part.setProgress, Part.normalEntry, hi], rfl⟩

theorem Part.takeHead_keeps {p : Part} {f : FixtureIx} {st : Step} {rest : List Step} (ho : (p.fx f).run.isOpen = true)
    (hi : (p.fx f).inflight = none) (hq : (p.fx f).queue = st :: rest) (hl : (p.fx f).log.length < 64) :
    p.Keeps (p.takeHead f st rest) := by
  refine Part.FixtureKeeps.keeps ⟨⟨fun hc => ⟨?_, ?_, hc.2.2⟩, fun hr hlow => ?_, fun hr => ⟨(hr f).1, fun _ => ho, (hr f).2.2⟩,
    fun _ hp => hp, .inl, fun n hn => ?_, fun hv => ⟨hv.1, fun hs => ?_⟩⟩, fun h => h, rfl, rfl⟩
  · simp; omega
  · have := hc.2.1
    rw [hq, List.length_cons] at this
    simp; omega
  · obtain ⟨_, i, _, _, _, h, _⟩ := hr hlow
    rw [hi] at h; cases h
  · obtain ⟨i, h, _⟩ := hn
    rw [hi] at h; cases h
  · have := hv.2 hs
    rw [hq] at this; cases this

theorem Part.takeHead_fresh (p : Part) (f : FixtureIx) (st : Step) (rest : List Step) : (p.takeHead f st rest).Fresh f :=
  ⟨{ step := st, startedAt := p.clock, progress := .plain }, by simp [Part.takeHead], rfl⟩

theorem Part.Fresh.isSome {p : Part} {f : FixtureIx} (h : p.Fresh f) : (p.fx f).inflight.isSome = true := by
  obtain ⟨i, hi, _⟩ := h
  rw [hi]; rfl

/-! ## The head of the queue -/

section
variable {grant : Part → Part} (hgrant : ∀ p, Part.Keeps p (grant p))
include hgrant

theorem Part.beginStep_keeps {p : Part} {f : FixtureIx} {st : Step} {rest : List Step} (ho : (p.fx f).run.isOpen = true)
    (hi : (p.fx f).inflight = none) (hq : (p.fx f).queue = st :: rest) (hl : (p.fx f).log.length < 64) :
    p.Keeps (p.beginStep grant f st rest) := by
  refine (Part.takeHead_keeps ho hi hq hl).trans ?_
  have hf := p.takeHead_fresh f st rest
  unfold Part.beginStep
  generalize p.takeHead f st rest = q at hf
  dsimp only
  split
  · exact hgrant q
  · exact (Part.beginStart_keeps hf.isSome _).trans (hgrant _)
  · exact q.beginStop_keeps f _
  · exact .ite (fun _ => q.closeStep_keeps f _) fun _ => .refl q
  · exact Part.beginWaitFor_keeps hf _
  · exact Part.beginMeasure_keeps hf _ _
  · exact Part.beginPrompt_keeps hf _ _ _
  · exact .refl q

omit hgrant in
/-- A step that is passed over, or a queue that is cut short, keeps the laws. -/
theorem Part.shortenQueue_keeps {p : Part} {f : FixtureIx} {l : List Step} (h : l.length ≤ (p.fx f).queue.length)
    (hs : (p.fx f).queue = [] → l = []) : p.Keeps (p.modFx f fun x => { x with queue := l }) :=
  Part.FixtureKeeps.keeps ⟨⟨fun hc => ⟨hc.1, h.trans hc.2.1, hc.2.2⟩, fun h => h, fun h => h f, fun _ h => h, .inl, fun _ => .inl,
    fun hv => ⟨hv.1, fun h => hs (hv.2 h)⟩⟩, fun h => h, rfl, rfl⟩

theorem Part.runQueueWith_keeps (f : FixtureIx) (n : Nat) (p : Part) : p.Keeps (Part.runQueueWith grant f n p) := by
  induction n generalizing p with
  | zero => exact .refl p
  | succ n ih =>
    unfold Part.runQueueWith
    dsimp only
    refine .ite (fun h => ?_) fun _ => .refl p
    rw [Bool.and_eq_true, Option.isNone_iff_eq_none] at h
    obtain ⟨ho, hi⟩ := h
    split
    · exact .ite (fun _ => Part.enterHalting_keeps ho _) fun _ => .refl p
    · rename_i st rest hq
      refine .ite (fun _ => (Part.shortenQueue_keeps (by simp [hq]) (by simp [hq])).trans (ih _)) fun _ =>
        .ite (fun hl => (Part.beginStep_keeps hgrant ho hi hq hl).trans (ih _)) fun _ => .ite (fun _ => .refl p) fun _ =>
        .trans ?_ (Part.post_keeps _ _)
      exact (Part.FixtureKeeps.of_same (p := p) (y := { p.fx f with stalled := true }) {} rfl rfl rfl).keeps

end

theorem Part.runQueueBusy_keeps (p : Part) (f : FixtureIx) : p.Keeps (p.runQueueBusy f) :=
  Part.runQueueWith_keeps (fun q => .refl q) f _ p

/-! ## The record arbiter -/

theorem Fixture.setRecord_isSome {x : Fixture} {r : List Byte} (h : x.setRecord = some r) : x.inflight.isSome = true := by
  unfold Fixture.setRecord at h
  split at h
  · rename_i hi; rw [hi]; rfl
  · cases h

theorem Part.grantSet_keeps (p : Part) (f : FixtureIx) : p.Keeps (p.grantSet f) := by
  unfold Part.grantSet
  split
  · exact .refl p
  · rename_i r hr
    exact (((Part.applyRecord_keeps (.inl (Fixture.setRecord_isSome hr)) r).trans (Part.closeStep_keeps _ f _)).trans
      (Part.follow_keeps (fun g q => q.runQueueBusy_keeps g) _ f _)).trans (Part.runQueueBusy_keeps _ f)

theorem Part.examineIfEnded_keeps (p : Part) (f : FixtureIx) (b : Bool) : p.Keeps (p.examineIfEnded f b) :=
  .ite (fun _ => p.runQueueBusy_keeps f) fun _ => .refl p

theorem Part.moveSetpoint_channels (p : Part) (f : FixtureIx) (mv : Nat) : (p.moveSetpoint f mv).channels = p.channels := by
  unfold Part.moveSetpoint
  dsimp only
  repeat' split
  all_goals rfl

theorem Part.disconnect_channels (p : Part) (f : FixtureIx) (r : TripReason) : (p.disconnect f r).channels = p.channels := by
  obtain ⟨h, _, _, e⟩ := p.disconnect_eq f r
  rw [e]
  exact h.channels

/-- A record reaches no channel. -/
theorem Part.applyRecord_channels (p : Part) (f : FixtureIx) (r : List Byte) : (p.applyRecord f r).1.channels = p.channels := by
  unfold Part.applyRecord Part.applyTarget
  split
  case h_10 => unfold Part.canTx; split <;> rfl
  case h_11 => unfold Part.supplyOn; dsimp only; repeat' split
               all_goals rfl
  case h_12 => unfold Part.supplyOff; split
               · exact p.disconnect_channels f .none
               · rfl
  case h_13 => exact p.moveSetpoint_channels f _
  all_goals rfl

theorem Part.grantChannel_keeps {p : Part} {c : ChannelIx} (h : (p.ch c).state = .playing) : p.Keeps (p.grantChannel c) := by
  unfold Part.grantChannel
  split
  · exact .refl p
  · rename_i d hd
    have hdriven : p.Driven d.fixture := .inr ⟨c, Channel.boundTo_iff.mpr ⟨d, hd, rfl⟩, .inl h⟩
    dsimp only
    have h1 := Part.applyRecord_keeps hdriven (Pattern.slot p.pattern (p.ch c).position)
    have hc : ((p.applyRecord d.fixture (Pattern.slot p.pattern (p.ch c).position)).1.ch c).state = .playing := by
      rw [Part.ch_congr (p.applyRecord_channels _ _)]; exact h
    generalize p.applyRecord d.fixture (Pattern.slot p.pattern (p.ch c).position) = out at h1 hc ⊢
    refine .trans (.trans (.trans (h1.trans ?_) (Part.follow_keeps (fun _ q => .refl q) _ _ _))
      (Part.channelReport_keeps (fun _ q => .refl q) _ c)) (Part.examineIfEnded_keeps _ _ _)
    split
    · exact Part.channelFaulted_keeps _ c _
    · exact Part.channelApplied_keeps hc d _

/-- A channel that asks for its record plays. -/
theorem Channel.asks_playing {ch : Channel} {v : Level} (h : ch.asks = some v) : ch.state = .playing := by
  unfold Channel.asks at h
  split at h
  · simp_all
  · cases h

/-- A channel that the record arbiter chooses plays. -/
theorem Part.nextRecord_playing {p : Part} {c : ChannelIx} (h : p.nextRecord = some (.channel c)) : (p.ch c).state = .playing := by
  obtain ⟨v, _, hv⟩ := List.exists_of_findSome?_eq_some h
  rw [Option.or_eq_some_iff] at hv
  rcases hv with hv | ⟨_, hv⟩
  · obtain ⟨f, _, hf⟩ := Option.map_eq_some_iff.mp hv
    cases hf
  · obtain ⟨d, hd, hdc⟩ := Option.map_eq_some_iff.mp hv
    cases hdc
    have := List.find?_some hd
    exact Channel.asks_playing (by simpa using this)

theorem Part.tryGrant_keeps (p : Part) : p.Keeps p.tryGrant := by
  have busy : p.Keeps { p with pathBusy := some (p.clock + 5) } := Part.SameSeen.keeps {} rfl rfl fun _ => rfl
  refine .ite (fun _ => .refl p) fun _ => ?_
  split
  · exact .refl p
  · exact busy.trans (Part.grantSet_keeps _ _)
  · rename_i c h
    exact busy.trans (Part.grantChannel_keeps (p := { p with pathBusy := some (p.clock + 5) }) (Part.nextRecord_playing h))

theorem Part.runQueue_keeps (p : Part) (f : FixtureIx) : p.Keeps (p.runQueue f) :=
  Part.runQueueWith_keeps Part.tryGrant_keeps f _ p

theorem Part.finish_keeps (p : Part) (f : FixtureIx) (e : StepEnd) : p.Keeps (p.finish f e) :=
  p.endStep_keeps (fun g q => q.runQueue_keeps g) f e

end Sys2Proof.Machine
end

section
/-! PROOFS. The laws of the part are kept by what the converter returns and by the events of a fixture. -/

namespace Sys2Proof.Machine

open Sys2Proof

/-! ## What the converter returns (sections 7.3 and 7.4) -/

theorem Part.judgeReference_keeps (p : Part) (codes : List Nat) : p.Keeps (p.judgeReference codes) := by
  unfold Part.judgeReference
  dsimp only
  split
  · rename_i hm
    have h : p.Keeps (p.modConv fun v => { v with cref := halfUp codes.sum 4, refFault := false }) :=
      Part.modConv_keeps .inl fun _ => hm
    exact .ite (fun _ => h.trans (Part.post_keeps _ _)) fun _ => h
  · exact .ite (fun _ => .refl p) fun _ => .trans (Part.modConv_keeps_of_same id rfl) (Part.post_keeps _ _)

/-- A QUIESCENT step is in flight. -/
def Part.Quiescent (p : Part) (f : FixtureIx) : Prop :=
  ∃ i last since due, (p.fx f).inflight = some i ∧ i.progress = .quiescent last since due

theorem Part.rangeAfter_keeps {p : Part} {f : FixtureIx} (h : p.Quiescent f) (rd : Reading) (b : Bool) :
    p.Keeps (p.rangeAfter f rd b) :=
  .ite (fun hs => Part.changeRange_keeps fun _ => ⟨hs.2.2, h⟩) fun _ => .ite (fun _ => p.rangeHigh_keeps f) fun _ => .refl p

theorem Part.setProgress_quiescent {p : Part} {f : FixtureIx} {i : InFlight} (hi : (p.fx f).inflight = some i)
    (last : Option Reading) (since : Option (BitVec 32)) (due : Option Nat) :
    (p.setProgress f (.quiescent last since due)).Quiescent f :=
  ⟨{ i with progress := .quiescent last since due }, last, since, due, by simp [Part.setProgress, hi], rfl⟩

theorem Part.judgeReading_keeps {p : Part} {f : FixtureIx} {i : InFlight} {last : Option Reading} {since : Option (BitVec 32)}
    {due : Option Nat} (hi : (p.fx f).inflight = some i) (hpr : i.progress = .quiescent last since due)
    (start : Option (BitVec 32)) (r : Range) (codes : List Nat) : p.Keeps (p.judgeReading f i start r codes) := by
  unfold Part.judgeReading
  split
  · exact .ite (fun _ => p.finish_keeps f _) fun _ => .ite (fun _ => p.finish_keeps f _) fun _ =>
      (Part.setProgress_keeps hi (fun _ _ _ _ => ⟨_, _, _, rfl⟩) (by simp [hpr])).trans
        (Part.rangeAfter_keeps (Part.setProgress_quiescent hi _ _ _) _ _)
  · exact .refl p

theorem Part.deliver_keeps (p : Part) (f : FixtureIx) (input : ConvInput) (codes : List Nat) : p.Keeps (p.deliver f input codes) := by
  unfold Part.deliver
  split
  · rename_i r i hr hi
    dsimp only
    generalize (if r.remaining - codes.length = 0 then none else some { r with remaining := r.remaining - codes.length }) = req
    have h : p.Keeps (p.modConv fun v => v.setReq f req) := Part.modConv_keeps_of_same id rfl
    refine h.trans ?_
    split
    · rename_i hpr
      refine .ite (fun _ => ?_) fun _ => Part.setProgress_keeps hi (by simp [hpr]) (by simp [hpr])
      split
      · exact Part.finish_keeps _ f _
      · exact .refl _
    · rename_i hpr
      exact Part.judgeReading_keeps (p := p.modConv fun v => v.setReq f req) hi hpr _ _ _
    · exact .refl _
  · exact .refl p

theorem Part.endBurst_keeps (p : Part) (b : Burst) (cs : Codes) : p.Keeps (p.endBurst b cs) := by
  unfold Part.endBurst
  dsimp only
  refine .trans (.trans (.ite (fun _ => .refl p) fun _ => ?_) (Part.modConv_keeps_of_same (fun _ => rfl) rfl)) (Part.afterBurst_keeps rfl)
  split
  · exact .trans (Part.modConv_keeps_of_same id rfl) (Part.judgeReference_keeps _ _)
  · exact p.deliver_keeps _ _ _

theorem Part.readyFailed_keeps (p : Part) (f : FixtureIx) : p.Keeps (p.readyFailed f) :=
  .trans (.trans (.trans (Part.modConv_keeps_of_same (fun h => by rw [h]; rfl) rfl) (Part.finish_keeps _ f _)) (Part.dropBurst_keeps _))
    (Part.afterBurst_keeps rfl)

theorem Part.referenceDue_keeps (p : Part) : p.Keeps p.referenceDue :=
  .trans (Part.modConv_keeps_of_same id rfl)
    (.ite (fun _ => .trans (Part.modConv_keeps_of_same id rfl) (Part.tryBurst_keeps _)) fun _ => .refl _)

/-! ## Time -/

/-- Fixtures that differ in their capture units alone keep the laws. -/
theorem Part.Keeps.of_captures {p q : Part} (hf : ∀ f, ∃ c, q.fx f = { p.fx f with capture := c })
    (hr : { q with clock := p.clock, fixtures := p.fixtures } = p) : p.Keeps q := by
  have hch : q.channels = p.channels := (congrArg Part.channels hr :)
  have ch := Part.ch_congr hch
  have con : ∀ k, q.con k = p.con k := fun k => by
    have ha : q.consoleA = p.consoleA := (congrArg Part.consoleA hr :)
    have hb : q.consoleB = p.consoleB := (congrArg Part.consoleB hr :)
    cases k <;> assumption
  have each : ∀ {P : FixtureIx → Fixture → Prop}, (∀ k x c, P k x → P k { x with capture := c }) → (∀ k, P k (p.fx k)) →
      ∀ k, P k (q.fx k) := by
    intro P hc hp k
    obtain ⟨c, e⟩ := hf k
    exact e ▸ hc k _ c (hp k)
  refine ⟨⟨?store, ?capacity, ?lend, ?range, ?run, ?port, ?rack, ?prompt, ?verdict⟩, .of_link (congrArg Part.link hr :), (congrArg Part.fitted hr :), ?_, ?_, ?_,
    fun k => by rw [con]⟩
  case store =>
    have h1 : q.pattern = p.pattern := (congrArg Part.pattern hr :)
    have h2 : q.conv = p.conv := (congrArg Part.conv hr :)
    have h3 : q.link = p.link := (congrArg Part.link hr :)
    simp only [Part.StoreLaw, h1, h2, h3]; exact id
  case lend =>
    have h1 : q.lend = p.lend := (congrArg Part.lend hr :)
    have h2 : q.conv = p.conv := (congrArg Part.conv hr :)
    simp only [Part.LendLaw, h1, h2]; exact id
  case capacity => exact each (P := fun _ x => x.Capacity) fun _ _ _ => id
  case range => exact each (P := fun _ x => x.RangeOk) fun _ _ _ => id
  case run =>
    intro h k
    obtain ⟨c, e⟩ := hf k
    simp only [e, ch]
    exact h k
  case port => exact fun _ => each (P := fun _ x => x.PortOk) fun _ _ _ => id
  case rack =>
    have h1 : q.rack = p.rack := (congrArg Part.rack hr :)
    exact fun h hcut => each (P := fun _ x => x.supply.live = false) (fun _ _ _ => id) (h (h1 ▸ hcut))
  case prompt =>
    simp only [Part.promptLaw_iff, con]
    intro h k
    refine ⟨(h k).1, fun e he hs => ?_⟩
    obtain ⟨c, e'⟩ := hf e.owner
    rw [e']
    exact (h k).2 e he hs
  case verdict => exact each (P := fun _ x => x.VerdictOk) fun _ _ _ => id
  · exact each (P := fun k x => x.run.isOpen = true → (p.fx k).run.isOpen = true) (fun _ _ _ => id) fun _ => id
  · exact each (P := fun k x => x.sense.presence = (p.fx k).sense.presence) (fun _ _ _ => id) fun _ => rfl
  · exact each (P := fun k x => x.sense.lid = (p.fx k).sense.lid) (fun _ _ _ => id) fun _ => rfl

theorem Part.advanceTo_keeps (p : Part) (t : Nat) : p.Keeps (p.advanceTo t) :=
  .of_captures (fun f => ⟨_, p.advanceTo_fx_eq t f⟩) (p.advanceTo_rest t)

/-! ## Timers of steps -/

theorem Part.stepTimedOut_keeps (p : Part) (f : FixtureIx) : p.Keeps (p.stepTimedOut f) := by
  unfold Part.stepTimedOut
  split
  · exact (p.advanceTo_keeps _).trans (Part.finish_keeps _ f _)
  · exact .refl p

theorem Part.waitOver_keeps (p : Part) (f : FixtureIx) : p.Keeps (p.waitOver f) := by
  unfold Part.waitOver
  split
  · exact (p.advanceTo_keeps _).trans (Part.finish_keeps _ f _)
  · exact .refl p

theorem Part.readingDue_keeps (p : Part) (f : FixtureIx) : p.Keeps (p.readingDue f) := by
  unfold Part.readingDue
  split
  · rename_i t i _ hi
    split
    · rename_i hpr
      refine ((p.advanceTo_keeps t).trans (Part.setProgress_keeps ((p.advanceTo_fx_inflight t f).trans hi) ?_ ?_)).trans
        (Part.raiseRequest_keeps _ f _ _)
      · exact fun _ _ _ _ => ⟨_, _, _, rfl⟩
      · simp [hpr]
    · exact .refl p
  · exact .refl p

/-! ## Transfers, dwells, outputs and lines -/

theorem Part.transferOver_keeps (p : Part) : p.Keeps p.transferOver := by
  unfold Part.transferOver
  split
  · exact .refl p
  · have free : ∀ q : Part, q.Keeps { q with pathBusy := none } := fun q => Part.SameSeen.keeps {} rfl rfl fun _ => rfl
    exact ((p.advanceTo_keeps _).trans (free _)).trans (Part.tryGrant_keeps _)

theorem Part.dwellOver_keeps (p : Part) (c : ChannelIx) : p.Keeps (p.dwellOver c) := by
  unfold Part.dwellOver
  split
  · exact .refl p
  · rename_i t ht
    have hs : (p.ch c).state = .playing := by
      unfold Channel.dwellAt at ht
      split at ht
      · simp_all
      · cases ht
    have hs' : ((p.advanceTo t).ch c).state = .playing := by rw [p.advanceTo_ch]; exact hs
    exact (((p.advanceTo_keeps t).trans (Part.dwellDone_keeps hs')).trans
      (Part.channelReport_keeps (fun f q => q.runQueue_keeps f) _ c)).trans (Part.tryGrant_keeps _)

theorem Part.periodStarts_keeps (p : Part) (f : FixtureIx) : p.Keeps (p.periodStarts f) := by
  unfold Part.periodStarts
  split
  · exact .refl p
  · exact (p.advanceTo_keeps _).trans (Part.modOuts_keeps _ f _)

theorem Part.phaseEnds_keeps (p : Part) (f : FixtureIx) : p.Keeps (p.phaseEnds f) := by
  unfold Part.phaseEnds
  split
  · exact .refl p
  · exact (p.advanceTo_keeps _).trans (Part.modOuts_keeps _ f _)

theorem Part.lineLevel_keeps (p : Part) (f : FixtureIx) (l : LineIx) (v : Bool) : p.Keeps (p.lineLevel f l v) :=
  (p.modOuts_keeps f _).trans (.ite (fun _ => Part.lineReaction_keeps (fun g q => q.runQueue_keeps g) _ f _) fun _ => .refl _)

theorem Part.overflows_keeps (p : Part) (f : FixtureIx) : p.Keeps (p.overflows f) := by
  unfold Part.overflows
  split
  · exact (p.advanceTo_keeps _).trans (Part.finish_keeps _ f _)
  · exact .refl p

/-! ## Bus port -/

theorem Part.offer_keeps (p : Part) (f : FixtureIx) (fr : BusFrame) : p.Keeps (p.offer f fr) := by
  have h : p.Keeps (p.modFx f fun x =>
      { x with watch := mapEntries (fun w => if w.hits fr then w.capture fr p.uptime else w) x.watch }) :=
    Part.FixtureKeeps.keeps (.of_same {} rfl rfl rfl)
  unfold Part.offer
  dsimp only
  refine h.trans ?_
  split
  · exact .ite (fun _ => Part.finish_keeps _ f _) fun _ => .refl _
  · exact .refl _

theorem Part.frameEnds_keeps (p : Part) (f : FixtureIx) (fr : BusFrame) : p.Keeps (p.frameEnds f fr) := by
  refine .ite (fun _ => .refl p) fun _ => ?_
  split
  · exact .refl p
  · exact Part.modPort_keeps rfl le_rfl
  · exact Part.modPort_keeps rfl le_rfl
  · exact .trans (Part.modPort_keeps rfl le_rfl) (Part.offer_keeps _ f _)

theorem Part.attemptBegins_keeps (p : Part) (f : FixtureIx) : p.Keeps (p.attemptBegins f) :=
  .ite (fun _ => Part.modPort_keeps rfl le_rfl) fun _ => .refl p

theorem Part.attemptFails_keeps (p : Part) (f : FixtureIx) : p.Keeps (p.attemptFails f) := by
  unfold Part.attemptFails
  split
  · exact .refl p
  · rename_i hq
    refine .ite (fun _ => .trans (Part.modPort_keeps rfl ?_) (Part.post_keeps _ _)) fun _ => Part.modPort_keeps rfl ?_ <;> simp [hq]

theorem Part.attemptOver_keeps (p : Part) (f : FixtureIx) (o : AttemptOutcome) : p.Keeps (p.attemptOver f o) := by
  unfold Part.attemptOver
  split
  · exact .refl p
  · exact Part.modPort_keeps rfl le_rfl
  · split
    · exact Part.modPort_keeps rfl (by simp)
    · exact Part.modPort_keeps rfl le_rfl
    · exact p.attemptFails_keeps f
    · exact p.attemptFails_keeps f

/-! ## Supplies -/

theorem Part.regulation_keeps (p : Part) (f : FixtureIx) (b : Bool) : p.Keeps (p.regulation f b) := by
  refine .ite (fun _ => .refl p) fun _ => .trans (Part.modSupply_keeps_of_same rfl rfl) (.ite (fun h => ?_) fun _ => .refl _)
  exact Part.enterOn_keeps (fun g q => q.runQueue_keeps g) h.2.2

theorem Part.limitHolds_keeps (p : Part) (f : FixtureIx) : p.Keeps (p.limitHolds f) := by
  refine .ite (fun _ => .trans (Part.modSupply_keeps_of_same rfl rfl) (.ite (fun h => Part.enterLimit_keeps ?_) fun _ => .refl _))
    fun _ => .refl p
  unfold Supply.live
  rw [h]
  rfl

theorem Part.limitClears_keeps (p : Part) (f : FixtureIx) : p.Keeps (p.limitClears f) :=
  .trans (Part.modSupply_keeps_of_same rfl rfl)
    (.ite (fun h => Part.backToOn_keeps (fun g q => q.runQueue_keeps g) h) fun _ => .refl _)

theorem Part.below_keeps (p : Part) (f : FixtureIx) (b : Bool) : p.Keeps (p.below f b) :=
  .trans (Part.modSupply_keeps_of_same rfl rfl)
    (.ite (fun _ => (Part.endDischarge_keeps _ f).trans (Part.endRun_keeps _ f)) fun _ => .refl _)

theorem Part.rampOver_keeps (p : Part) (f : FixtureIx) : p.Keeps (p.rampOver f) :=
  .ite (fun _ => (p.advanceTo_keeps _).trans (Part.tripSupply_keeps _ f _)) fun _ => .refl p

theorem Part.limitOver_keeps (p : Part) (f : FixtureIx) : p.Keeps (p.limitOver f) :=
  .ite (fun _ => (p.advanceTo_keeps _).trans (Part.tripSupply_keeps _ f _)) fun _ => .refl p

theorem Part.dischargeOver_keeps (p : Part) (f : FixtureIx) : p.Keeps (p.dischargeOver f) :=
  .ite (fun h => (p.advanceTo_keeps _).trans (Part.dischargeFailed_keeps (by rw [p.advanceTo_fx_supply]; exact h))) fun _ => .refl p

end Sys2Proof.Machine
end

section
/-! PROOFS. The laws of the part are kept by the switches, the rack monitor, the matrix and the consoles. -/

namespace Sys2Proof.Machine

open Sys2Proof

/-- Every law that `p` meets `q` meets too. -/
structure Part.Upholds (p q : Part) : Prop extends p.KeepsLaws q where
  interlock : p.InterlockLaw → q.InterlockLaw

theorem Part.Upholds.laws {p q : Part} (h : p.Upholds q) : p.KeepsLaws q := h.toKeepsLaws

theorem Part.Guarded.isFitted {p q : Part} (h : p.Guarded q) (f : FixtureIx) : q.isFitted f = p.isFitted f := by
  simp only [Part.isFitted, h.fitted]

theorem Part.Keeps.upholds {p q : Part} (h : p.Keeps q) : p.Upholds q :=
  ⟨h.laws, fun hi f ho => by
    have g := h.guarded
    rw [g.isFitted, g.presence, g.lid, g.stop]
    exact hi f (g.opened f ho)⟩

theorem Part.Upholds.refl (p : Part) : p.Upholds p := (Part.Keeps.refl p).upholds

theorem Part.Upholds.trans {p q r : Part} (h : p.Upholds q) (k : q.Upholds r) : p.Upholds r :=
  ⟨h.laws.trans k.laws, k.interlock ∘ h.interlock⟩

theorem Part.Upholds.ite {p q r : Part} {c : Prop} [Decidable c] (h : c → p.Upholds q) (k : ¬ c → p.Upholds r) :
    p.Upholds (if c then q else r) := by
  split
  · exact h ‹_›
  · exact k ‹_›

/-! ## Switches (sections 1.1 and 9.5) -/

theorem Part.switchRaw_keeps (p : Part) (f : FixtureIx) (sw : Switch) (b : Bool) : p.Keeps (p.switchRaw f sw b) := by
  have raw : ∀ s : Sense, (s.rawChange sw b p.clock).presence = s.presence ∧ (s.rawChange sw b p.clock).lid = s.lid := by
    intro s
    cases sw <;> unfold Sense.rawChange <;> dsimp only <;> split <;> exact ⟨rfl, rfl⟩
  refine Part.FixtureKeeps.keeps (.of_same { presence := ?_, lid := ?_ } rfl rfl rfl) <;> split
  · exact (raw _).1
  · cases sw <;> rfl
  · exact (raw _).2
  · cases sw <;> rfl

theorem Part.postSense_keeps (p : Part) (f : FixtureIx) : p.Keeps (p.postSense f) := p.post_keeps _

/-- A cut leaves the run record of a run that is not HALTING. -/
theorem Part.cutSupply_run {p : Part} {f : FixtureIx} (h : (p.fx f).run.state ≠ .halting) :
    ((p.cutSupply f).fx f).run = (p.fx f).run := by
  rcases Part.cutSupply_eq h with ⟨e, _⟩ | ⟨_, q, hq, _, _, e⟩
  · rw [e]
  · rw [e, Part.modSupply_fx, hq.fx_eq]

theorem Run.state_ne_halting {u : Run} (h : u.isOpen = true) : u.state ≠ .halting := by
  rcases Run.isOpen_iff.mp h with h | h <;> simp [h]

theorem Part.cutSupply_isOpen {p : Part} {f : FixtureIx} (h : (p.fx f).run.isOpen = true) :
    ((p.cutSupply f).fx f).run.isOpen = true := by
  rw [Part.cutSupply_run (Run.state_ne_halting h)]
  exact h

theorem Part.giveSafety_fx (p : Part) (f : FixtureIx) (t : List Byte) (g : FixtureIx) : (p.giveSafety f t).fx g = p.fx g := by
  simp [Part.giveSafety]

theorem Part.interlock_keeps (p : Part) (f : FixtureIx) (t : List Byte) : p.Keeps (p.interlock f t) :=
  .ite (fun h => ((p.cutSupply_keeps f).trans (Part.enterHalting_keeps (Part.cutSupply_isOpen h) _)).trans
    (Part.giveSafety_keeps _ f _)) fun _ => .ite (fun _ => p.cutSupply_keeps f) fun _ => .refl p

/-- After the interlock no run is open at its fixture. -/
theorem Part.interlock_notOpen (p : Part) (f : FixtureIx) (t : List Byte) : ((p.interlock f t).fx f).run.isOpen = false := by
  cases ho : (p.fx f).run.isOpen with
  | true =>
    rw [Part.interlock, if_pos ho, Part.giveSafety_fx]
    exact (Part.enterHalting_halted (Part.cutSupply_isOpen ho) _).notOpen
  | false =>
    rw [Bool.eq_false_iff]
    intro h
    rw [(p.interlock_keeps f t).guarded.opened f h] at ho
    cases ho

/-- A debounced level that changes breaks no law but the interlock. -/
theorem Part.modSense_keepsLaws (p : Part) (f : FixtureIx) (g : Sense → Sense) :
    p.KeepsLaws (p.modFx f fun x => { x with sense := g x.sense }) :=
  Part.FixtureLaws.keepsLaws ⟨id, id, fun h => h f, fun _ => id, .inl, fun _ => .inl, id⟩

/-- A switch settles: the laws are kept if no run is left open under a level that has fallen. -/
theorem Part.settle_upholds {p q : Part} {f : FixtureIx} {g : Sense → Sense}
    (h : (p.modFx f fun x => { x with sense := g x.sense }).Keeps q)
    (hp : (q.fx f).run.isOpen = true → (g (p.fx f).sense).presence = true ∨ (g (p.fx f).sense).presence = (p.fx f).sense.presence)
    (hl : (q.fx f).run.isOpen = true → (g (p.fx f).sense).lid = true ∨ (g (p.fx f).sense).lid = (p.fx f).sense.lid) :
    p.Upholds q := by
  refine ⟨(p.modSense_keepsLaws f g).trans h.laws, fun hi k ho => ?_⟩
  have G := h.guarded
  have ho' : (p.fx k).run.isOpen = true := by
    have := G.opened k ho
    by_cases e : k = f
    · subst e; rwa [Part.modFx_fx] at this
    · rwa [Part.modFx_fx_ne _ _ e] at this
  obtain ⟨h1, h2, h3, h4⟩ := hi k ho'
  rw [G.isFitted, G.presence, G.lid, G.stop]
  refine ⟨h1, ?_, ?_, h4⟩
  · by_cases e : k = f
    · subst e
      rw [Part.modFx_fx]
      exact (hp ho).elim (fun e => e) fun e => e.trans h2
    · rw [Part.modFx_fx_ne _ _ e]
      exact h2
  · by_cases e : k = f
    · subst e
      rw [Part.modFx_fx]
      exact (hl ho).elim (fun e => e) fun e => e.trans h3
    · rw [Part.modFx_fx_ne _ _ e]
      exact h3

/-- The switches once the lid's debounce has ended. -/
def Sense.lidTaken (s : Sense) : Sense :=
  { s with lid := settledLevel s.rawLid s.lidAfter, lidDue := s.lidAfter, lidAfter := none }

/-- The switches once the presence switch's debounce has ended. -/
def Sense.presenceTaken (s : Sense) : Sense :=
  { s with presence := settledLevel s.rawPresence s.presenceAfter, presenceDue := s.presenceAfter, presenceAfter := none }

theorem Part.lidSettled_eq (p : Part) (f : FixtureIx) :
    p.lidSettled f =
      let q := (p.modFx f fun x => { x with sense := x.sense.lidTaken }).postSense f
      if (p.fx f).sense.lidTaken.lid then q else q.interlock f textLidOpen := by
  unfold Part.lidSettled Part.postSense
  simp only [Part.post_fx, Part.modFx_fx]
  rfl

theorem Part.presenceSettled_eq (p : Part) (f : FixtureIx) :
    p.presenceSettled f =
      let q := (p.modFx f fun x => { x with sense := x.sense.presenceTaken }).postSense f
      if (p.fx f).sense.presenceTaken.presence then q else q.interlock f textUnitRemoved := by
  unfold Part.presenceSettled Part.postSense
  simp only [Part.post_fx, Part.modFx_fx]
  rfl

theorem Part.lidSettled_upholds (p : Part) (f : FixtureIx) : p.Upholds (p.lidSettled f) := by
  rw [Part.lidSettled_eq]
  dsimp only
  split
  · rename_i h
    exact Part.settle_upholds (g := Sense.lidTaken) (Part.postSense_keeps _ f) (fun _ => .inr rfl) fun _ => .inl h
  · refine Part.settle_upholds (g := Sense.lidTaken) ((Part.postSense_keeps _ f).trans (Part.interlock_keeps _ f _))
      (fun _ => .inr rfl) fun ho => ?_
    rw [Part.interlock_notOpen] at ho; cases ho

theorem Part.presenceSettled_upholds (p : Part) (f : FixtureIx) : p.Upholds (p.presenceSettled f) := by
  rw [Part.presenceSettled_eq]
  dsimp only
  split
  · rename_i h
    exact Part.settle_upholds (g := Sense.presenceTaken) (Part.postSense_keeps _ f) (fun _ => .inl h) fun _ => .inr rfl
  · refine Part.settle_upholds (g := Sense.presenceTaken) ((Part.postSense_keeps _ f).trans (Part.interlock_keeps _ f _))
      (fun ho => ?_) fun _ => .inr rfl
    rw [Part.interlock_notOpen] at ho; cases ho

theorem Part.senseDebounced_upholds (p : Part) (f : FixtureIx) (sw : Switch) : p.Upholds (p.senseDebounced f sw) := by
  cases sw with
  | lid =>
    show p.Upholds (p.settleLid f)
    unfold Part.settleLid
    split
    · exact .refl p
    · exact (p.advanceTo_keeps _).upholds.trans (Part.lidSettled_upholds _ f)
  | presence =>
    show p.Upholds (p.settlePresence f)
    unfold Part.settlePresence
    split
    · exact .refl p
    · exact ((p.advanceTo_keeps _).upholds.trans (.ite (fun _ => Part.lidSettled_upholds _ f) fun _ => .refl _)).trans
        (Part.presenceSettled_upholds _ f)

theorem Part.stopRawChange_keeps (p : Part) (k : ConsoleId) (b : Bool) : p.Keeps (p.stopRawChange k b) := by
  refine Part.modCon_keeps_of_sublist ?_ ?_ ?_ <;> split
  · rfl
  · rfl
  · rfl
  · rfl
  · exact List.Sublist.refl _
  · exact List.Sublist.refl _

theorem Part.stopFixture_keeps (p : Part) (f : FixtureIx) : p.Keeps (p.stopFixture f) :=
  .ite (fun _ => (p.haltRequest_keeps f _).trans (Part.cutSupply_keeps _ f)) fun _ => .refl p

theorem Part.haltRequest_notOpen (p : Part) (f : FixtureIx) (r : HaltReason) : ((p.haltRequest f r).fx f).run.isOpen = false := by
  unfold Part.haltRequest
  split
  · rename_i h; exact (Part.enterHalting_halted h r).notOpen
  · rename_i h; simpa using h

/-- A pressed STOP switch leaves no run open at a fitted fixture. -/
theorem Part.stopFixture_notOpen {p : Part} {f : FixtureIx} (h : p.isFitted f = true) :
    ((p.stopFixture f).fx f).run.isOpen = false := by
  rw [Part.stopFixture, if_pos h, Bool.eq_false_iff]
  intro ho
  have := (Part.cutSupply_keeps (p.haltRequest f .operatorStop) f).guarded.opened f ho
  rw [Part.haltRequest_notOpen] at this
  cases this

/-- Pressed STOP switches leave no run open at the fitted fixtures of a list. -/
theorem Part.stopFixtures_notOpen {l : List FixtureIx} {f : FixtureIx} (hf : f ∈ l) {p : Part} (h : p.isFitted f = true) :
    ((p.each l fun g q => q.stopFixture g).fx f).run.isOpen = false := by
  induction l generalizing p with
  | nil => cases hf
  | cons g l ih =>
    have hrest := Part.Keeps.each (fun g q => Part.stopFixture_keeps q g) l (p.stopFixture g)
    rcases List.mem_cons.mp hf with rfl | hf
    · rw [Bool.eq_false_iff]
      intro ho
      have := hrest.guarded.opened f ho
      rw [Part.stopFixture_notOpen h] at this
      cases this
    · exact ih hf (((p.stopFixture_keeps g).guarded.isFitted f).trans h)

theorem mem_servedBy (f : FixtureIx) : f ∈ servedBy (consoleFor f) := by
  revert f; decide

theorem Part.stopSettled_upholds (p : Part) (k : ConsoleId) : p.Upholds (p.stopSettled k) := by
  unfold Part.stopSettled
  split
  · exact .refl p
  · rename_i t _
    dsimp only
    refine (p.advanceTo_keeps t).upholds.trans ?_
    generalize p.advanceTo t = a
    generalize hg : (fun x : Console => { x with stopLevel := settledLevel x.stopRaw x.stopAfter, stopDue := x.stopAfter, stopAfter := none }) = g
    have hlaws : a.KeepsLaws (a.modCon k g) := by
      have he : ∀ l, ((a.modCon k g).con l).entries = (a.con l).entries ∧ ((a.modCon k g).con l).nextId = (a.con l).nextId := by
        intro l
        by_cases e : l = k
        · subst e; rw [Part.modCon_con, ← hg]; exact ⟨rfl, rfl⟩
        · rw [Part.modCon_con_ne _ _ e]; exact ⟨rfl, rfl⟩
      exact Part.SameSeen.keepsLaws
        ⟨by simp, by simp, by simp, by simp, by simp, by simp, by simp, by simp, fun l => (he l).1, fun l => (he l).2⟩
    generalize hb : a.modCon k g = b at hlaws
    have hafter : b.Keeps (if (b.con k).stopLevel = true then b.each (servedBy k) fun f q => q.stopFixture f else b) :=
      .ite (fun _ => .each (fun f q => q.stopFixture_keeps f) _ b) fun _ => .refl b
    have hshut : (b.con k).stopLevel = true → ∀ f, consoleFor f = k → b.isFitted f = true →
        ((if (b.con k).stopLevel = true then b.each (servedBy k) fun f q => q.stopFixture f else b).fx f).run.isOpen = false := by
      intro hs f hk hf
      rw [if_pos hs]
      exact Part.stopFixtures_notOpen (hk ▸ mem_servedBy f) hf
    refine Part.Upholds.trans ?_ (Part.post_keeps _ _).upholds
    generalize (if (b.con k).stopLevel = true then b.each (servedBy k) fun f q => q.stopFixture f else b) = c at hafter hshut
    refine ⟨hlaws.trans hafter.laws, fun hi f ho => ?_⟩
    have G := hafter.guarded
    have ho' := G.opened f ho
    have hfx : b.fx f = a.fx f := by rw [← hb, Part.modCon_fx]
    rw [hfx] at ho'
    obtain ⟨h1, h2, h3, h4⟩ := hi f ho'
    have hfit : b.isFitted f = a.isFitted f := by rw [← hb]; simp [Part.isFitted]
    rw [G.isFitted, G.presence, G.lid, G.stop, hfx, hfit]
    refine ⟨h1, h2, h3, ?_⟩
    by_cases e : consoleFor f = k
    · rw [Bool.eq_false_iff]
      intro hs
      rw [e] at hs
      rw [hshut hs f e (hfit.trans h1)] at ho
      cases ho
    · rw [← hb, Part.modCon_con_ne _ _ e]
      exact h4

/-! ## Rack monitor (section 3.7) -/

/-- A step of the rack level keeps the laws, the level itself apart. -/
theorem Part.rackStep_keeps (p : Part) (r : Rack) : Part.Keeps { p with rack := r } { p.rackStep with rack := r } := by
  unfold Part.rackStep
  dsimp only
  split
  · exact .refl _
  · exact Part.post_keeps { p with rack := r } _

theorem Part.rackStep_fx (p : Part) (f : FixtureIx) : p.rackStep.fx f = p.fx f := by
  unfold Part.rackStep
  dsimp only
  split <;> rfl

theorem Part.disconnect_others (p : Part) {f g : FixtureIx} (h : g ≠ f) (r : TripReason) : (p.disconnect f r).fx g = p.fx g := by
  obtain ⟨hr, _, _, e⟩ := p.disconnect_eq f r
  rw [e, Part.modSupply_fx_ne _ _ h, hr.others g h]

theorem Part.disconnect_notLive (p : Part) (f : FixtureIx) (r : TripReason) : ((p.disconnect f r).fx f).supply.live = false := by
  obtain ⟨_, _, _, e⟩ := p.disconnect_eq f r
  rw [e, Part.modSupply_fx]
  simp only [Supply.live]
  split
  · split <;> simp
  · simp

theorem Part.haltRequest_others (p : Part) {f g : FixtureIx} (h : g ≠ f) (r : HaltReason) : (p.haltRequest f r).fx g = p.fx g := by
  unfold Part.haltRequest
  split
  · rename_i ho; exact (Part.enterHalting_halted ho r).others g h
  · rfl

theorem Part.haltRequest_notLive {p : Part} {f : FixtureIx} (h : (p.fx f).supply.live = false) (r : HaltReason) :
    ((p.haltRequest f r).fx f).supply.live = false := by
  unfold Part.haltRequest
  split
  · rename_i ho; exact (Part.enterHalting_halted ho r).notLive
  · exact h

theorem Part.endRun_supply (p : Part) (f g : FixtureIx) : ((p.endRun f).fx g).supply = (p.fx g).supply := by
  unfold Part.endRun
  split
  · rw [Part.postRunState, Part.post_fx]
    by_cases e : g = f
    · subst e; rw [Part.modFx_fx]
    · rw [Part.modFx_fx_ne _ _ e]
  · rfl

/-- A trip leaves the other supplies as they are. -/
theorem Part.tripSupply_others (p : Part) {f g : FixtureIx} (h : g ≠ f) (r : TripReason) :
    ((p.tripSupply f r).fx g).supply = (p.fx g).supply := by
  rw [Part.tripSupply, Part.endRun_supply, Part.haltRequest_others _ h, Part.giveSafety_fx, Part.postSupplyEvent, Part.post_fx,
    p.disconnect_others h r]

theorem Part.tripSupply_notLive (p : Part) (f : FixtureIx) (r : TripReason) : ((p.tripSupply f r).fx f).supply.live = false := by
  rw [Part.tripSupply, Part.endRun_supply]
  refine Part.haltRequest_notLive ?_ _
  rw [Part.giveSafety_fx, Part.postSupplyEvent, Part.post_fx]
  exact p.disconnect_notLive f r

theorem Part.rackTrip_keeps (p : Part) (f : FixtureIx) : p.Keeps (p.rackTrip f) :=
  .ite (fun _ => p.tripSupply_keeps f _) fun _ => .refl p

/-- A rack trip cuts its own supply off and brings no other to life. -/
theorem Part.rackTrip_notLive (p : Part) (f g : FixtureIx) (h : g = f ∨ (p.fx g).supply.live = false) :
    ((p.rackTrip f).fx g).supply.live = false := by
  unfold Part.rackTrip
  split
  · by_cases e : g = f
    · subst e; exact p.tripSupply_notLive g _
    · rw [Part.tripSupply_others _ e]; exact h.resolve_left e
  · rename_i hl
    rcases h with rfl | h
    · simpa using hl
    · exact h

theorem Part.rackTrips_notLive (l : List FixtureIx) (p : Part) (g : FixtureIx) (h : g ∈ l ∨ (p.fx g).supply.live = false) :
    ((p.each l fun f q => q.rackTrip f).fx g).supply.live = false := by
  induction l generalizing p with
  | nil => exact h.resolve_left nofun
  | cons f l ih =>
    refine ih _ ?_
    rcases h with h | h
    · rcases List.mem_cons.mp h with e | h
      · exact .inr (p.rackTrip_notLive f g (.inl e))
      · exact .inl h
    · exact .inr (p.rackTrip_notLive f g (.inr h))

theorem mem_allFixtures (f : FixtureIx) : f ∈ allFixtures := by revert f; decide

/-- The rack level follows its input, and a fall into CUTOFF trips what is live: the laws are kept as a whole. -/
theorem Part.rackFollows_keeps (p : Part) :
    p.Keeps (if p.rackStep.rackStep.rack.level = .cutoff ∧ p.rack.level ≠ .cutoff then
      p.rackStep.rackStep.each allFixtures fun f q => q.rackTrip f else p.rackStep.rackStep) := by
  have h1 : p.Keeps { p.rackStep.rackStep with rack := p.rack } := (p.rackStep_keeps p.rack).trans (Part.rackStep_keeps _ _)
  have hfx : ∀ f, p.rackStep.rackStep.fx f = p.fx f := fun f => (Part.rackStep_fx _ f).trans (p.rackStep_fx f)
  generalize p.rackStep.rackStep = b at h1 hfx ⊢
  have hg : p.Guarded b := ⟨h1.guarded.fitted, h1.guarded.opened, h1.guarded.presence, h1.guarded.lid, h1.guarded.stop⟩
  split
  · have h2 : b.Keeps (b.each allFixtures fun f q => q.rackTrip f) := .each (fun f q => q.rackTrip_keeps f) _ b
    have h3 : (b.each allFixtures fun f q => q.rackTrip f).RackLaw := fun _ f =>
      Part.rackTrips_notLive _ b f (.inl (mem_allFixtures f))
    exact ⟨⟨h2.store ∘ h1.store, h2.capacity ∘ h1.capacity, h2.lend ∘ h1.lend, h2.range ∘ h1.range, h2.run ∘ h1.run,
      fun hr hp => h2.port (h1.run hr) (h1.port hr hp), fun _ => h3, h2.prompt ∘ h1.prompt, h2.verdict ∘ h1.verdict⟩,
      h1.held.trans h2.held, hg.trans h2.guarded⟩
  · rename_i hn
    refine ⟨⟨h1.store, h1.capacity, h1.lend, h1.range, h1.run, h1.port, fun hr hcut f => ?_, h1.prompt, h1.verdict⟩, h1.held, hg⟩
    rw [hfx]
    exact hr (by by_contra hne; exact hn ⟨hcut, hne⟩) f

theorem Part.rackMoves_keeps (p : Part) (mv : Nat) : p.Keeps (p.rackMoves mv) := by
  have h : p.Keeps { p with rack := { p.rack with mv := mv } } := Part.SameSeen.keeps {} rfl rfl fun _ => rfl
  exact h.trans (.ite (fun _ => Part.rackFollows_keeps _) fun _ => .refl _)

/-! ## Converter and lends -/

theorem Part.settleOver_keeps (p : Part) : p.Keeps p.settleOver := by
  unfold Part.settleOver
  split
  · exact (p.advanceTo_keeps _).trans (Part.startConverting_keeps _)
  · exact .refl p

theorem Part.senseReady_keeps (p : Part) (f : FixtureIx) (b : Bool) : p.Keeps (p.senseReady f b) :=
  .trans (Part.FixtureKeeps.keeps (.of_same {} rfl rfl rfl)) (.ite (fun _ => Part.startConverting_keeps _) fun _ => .refl _)

theorem Part.readyOver_keeps (p : Part) : p.Keeps p.readyOver := by
  unfold Part.readyOver
  split
  · exact .ite (fun _ => .refl p) fun _ => (p.advanceTo_keeps _).trans (Part.readyFailed_keeps _ _)
  · exact .refl p

theorem Part.burstOver_keeps (p : Part) (cs : Codes) : p.Keeps (p.burstOver cs) := by
  unfold Part.burstOver
  split
  · exact (p.advanceTo_keeps _).trans (Part.endBurst_keeps _ _ _)
  · exact .refl p

theorem Part.referenceOver_keeps (p : Part) : p.Keeps p.referenceOver := (p.advanceTo_keeps _).trans (Part.referenceDue_keeps _)

/-- A change of the lend state that leaves the matrix. -/
theorem Part.modLend_keeps_of_same {p : Part} {g : Lend → Lend} (h : (g p.lend).matrix = p.lend.matrix) : p.Keeps (p.modLend g) :=
  Part.modLend_keeps (by rw [h]; exact .inl)

theorem Part.holdRises_keeps (p : Part) : p.Keeps p.holdRises := by
  refine .ite (fun _ => .refl p) fun _ => .trans (Part.modLend_keeps_of_same rfl) (.ite (fun _ => .refl _) fun _ => ?_)
  split
  · exact Part.lendRequest_keeps _ _ _
  · exact Part.modLend_keeps_of_same rfl
  · exact Part.modLend_keeps_of_same rfl
  · exact .refl _
  · exact .refl _

theorem Part.holdDrops_keeps (p : Part) : p.Keeps p.holdDrops := by
  refine .ite (fun _ => .trans (Part.modLend_keeps_of_same rfl) (.ite (fun _ => .refl _) fun _ =>
    .ite (fun _ => Part.modLend_keeps_of_same rfl) fun _ => ?_)) fun _ => .refl p
  split
  · exact Part.endLend_keeps _ _ _ _
  · exact Part.modLend_keeps fun h => by simp [Matrix.code] at h
  · exact .refl _
  · exact .refl _
  · exact .refl _

theorem Part.lendGranted_keeps (p : Part) : p.Keeps p.lendGranted := by
  unfold Part.lendGranted
  split
  · exact .ite (fun h => Part.grantLend_keeps (by simpa using h) _ _) fun _ => .refl p
  · exact .refl p

theorem Part.blockHold_keeps (p : Part) (s : LendSource) : p.Keeps (p.blockHold s) :=
  .ite (fun _ => Part.modLend_keeps_of_same rfl) fun _ => .refl p

theorem Part.lendOverruns_keeps (p : Part) : p.Keeps p.lendOverruns := by
  unfold Part.lendOverruns
  split
  · exact ((p.advanceTo_keeps _).trans (Part.blockHold_keeps _ _)).trans (Part.endLend_keeps _ _ _ _)
  · exact .refl p

/-! ## Buttons and the flash clock -/

/-- A change of a console that leaves its list and its STOP level. -/
theorem Part.modCon_keeps_of_same {p : Part} {k : ConsoleId} {g : Console → Console}
    (h : { g (p.con k) with longTime := (p.con k).longTime, pass := (p.con k).pass, fail := (p.con k).fail } = p.con k) :
    p.Keeps (p.modCon k g) := by
  refine Part.modCon_keeps_of_sublist (congrArg Console.stopLevel h :) (congrArg Console.nextId h :) ?_
  rw [show (g (p.con k)).entries = (p.con k).entries from (congrArg Console.entries h :)]

theorem Console.setButton_same (c : Console) (k : Button) (v : ButtonState) :
    { c.setButton k v with longTime := c.longTime, pass := c.pass, fail := c.fail } = c := by cases k <;> rfl

theorem Part.setButton_keeps (p : Part) (k : ConsoleId) (b : Button) (v : Console → ButtonState) :
    p.Keeps (p.modCon k fun x => x.setButton b (v x)) :=
  Part.modCon_keeps_of_same (Console.setButton_same _ _ _)

theorem Part.buttonGoesDown_keeps (p : Part) (k : ConsoleId) (b : Button) : p.Keeps (p.buttonGoesDown k b) := by
  refine .ite (fun _ => .refl p) fun _ => Part.modCon_keeps_of_same ?_
  split
  · cases b <;> rfl
  · exact Console.setButton_same _ _ _

theorem Part.pressReaches60ms_keeps (p : Part) (k : ConsoleId) (b : Button) : p.Keeps (p.pressReaches60ms k b) := by
  unfold Part.pressReaches60ms
  split
  · exact (p.advanceTo_keeps _).trans (Part.setButton_keeps _ k b _)
  · exact .refl p

/-- An entry a press is bound to stands in the list. -/
theorem Console.boundEntry_mem {c : Console} {r : Press} {e : Entry} (h : c.boundEntry r = some e) : e ∈ c.entries := by
  unfold Console.boundEntry at h
  split at h
  · cases h
  · exact List.mem_of_find?_eq_some h

theorem Part.shortPress_keeps (p : Part) (k : ConsoleId) (b : Button) (e : Entry) : p.Keeps (p.shortPress k b e) := by
  unfold Part.shortPress
  split
  · exact p.finish_keeps _ _
  · exact Part.modCon_keeps_of_sublist rfl rfl List.filter_sublist
  · exact p.finish_keeps _ _
  · exact .refl p
  · exact .refl p

/-- A NORMAL entry of the list may move to its bottom. -/
theorem Part.defer_keeps {p : Part} {k : ConsoleId} {e : Entry} (he : e ∈ (p.con k).entries) (hn : e.isSafety = false) :
    p.Keeps (p.modCon k fun x => x.defer e) := by
  refine Part.modCon_keeps rfl (fun ho _ => ?_) fun d hd _ => .inl ?_
  · have hne : ∀ d ∈ (p.con k).entries.filter (fun x => x.id ≠ e.id), d.id ≠ e.id := fun d hd => by
      simpa using (List.mem_filter.mp hd).2
    obtain ⟨h1, h2, h3, h4, h5⟩ := ho.sublist (List.filter_sublist (p := fun x => x.id ≠ e.id))
    refine ⟨?_, fun d hd => ?_, ?_, ?_, ?_⟩
    · simp only [Console.defer, List.map_append, List.map_cons, List.map_nil, List.nodup_append, h1, List.nodup_singleton, true_and]
      intro a ha b hb
      obtain ⟨d, hd, rfl⟩ := List.mem_map.mp ha
      obtain rfl := List.mem_singleton.mp hb
      exact hne d hd
    · rcases List.mem_append.mp hd with hd | hd
      · exact h2 d hd
      · obtain rfl := List.mem_singleton.mp hd
        exact ho.2.1 d he
    · refine List.pairwise_append.mpr ⟨h3, List.pairwise_singleton _ _, fun a _ b hb hs => ?_⟩
      obtain rfl := List.mem_singleton.mp hb
      simp [hn] at hs
    · simpa [Console.defer, List.filter_append, hn] using h4
    · simp only [Console.defer, List.filter_append, List.map_append, List.nodup_append]
      refine ⟨h5, by simp [hn], fun a ha b hb => ?_⟩
      obtain ⟨d, hd, rfl⟩ := List.mem_map.mp ha
      obtain ⟨d', hd', rfl⟩ := List.mem_map.mp hb
      obtain rfl := List.mem_singleton.mp (List.mem_of_mem_filter hd')
      obtain ⟨hd, hs⟩ := List.mem_filter.mp hd
      intro howner
      have hinj := List.inj_on_of_nodup_map ho.2.2.2.2 (List.mem_filter.mpr ⟨List.mem_of_mem_filter hd, hs⟩)
        (List.mem_filter.mpr ⟨he, by simp [hn]⟩) howner
      exact hne d hd (congrArg Entry.id hinj)
  · rcases List.mem_append.mp hd with hd | hd
    · exact List.mem_of_mem_filter hd
    · obtain rfl := List.mem_singleton.mp hd
      exact he

theorem Part.longPress_keeps {p : Part} {k : ConsoleId} {e : Entry} (he : e ∈ (p.con k).entries) (b : Button) :
    p.Keeps (p.longPress k b e) := by
  unfold Part.longPress
  split
  · rename_i hcls
    exact Part.defer_keeps he (by simp [Entry.isSafety, hcls])
  · exact .refl p
  · exact p.haltRequest_keeps _ _

theorem Part.buttonGoesUp_keeps (p : Part) (k : ConsoleId) (b : Button) : p.Keeps (p.buttonGoesUp k b) := by
  refine .ite (fun _ => .trans (Part.setButton_keeps p k b fun _ => {}) ?_) fun _ => .refl p
  dsimp only
  split
  · split
    · exact Part.shortPress_keeps _ k b _
    · exact .refl _
  · exact .refl _

theorem Part.pressReachesLongTime_keeps (p : Part) (k : ConsoleId) (b : Button) : p.Keeps (p.pressReachesLongTime k b) := by
  unfold Part.pressReachesLongTime
  split
  · dsimp only
    have h : ∀ (t : Nat) (v : Console → ButtonState), p.Keeps ((p.advanceTo t).modCon k fun x => x.setButton b (v x)) := fun t v =>
      (p.advanceTo_keeps t).trans (Part.setButton_keeps _ k b v)
    split
    · rename_i hb
      exact (h _ _).trans (Part.longPress_keeps (Console.boundEntry_mem hb) b)
    · exact h _ _
  · exact .refl p

theorem Part.flashTurns_keeps (p : Part) : p.Keeps p.flashTurns :=
  (p.advanceTo_keeps _).trans (Part.SameSeen.keeps {} rfl rfl fun _ => rfl)

end Sys2Proof.Machine
end

section
/-! PROOFS. The laws of the part are kept by the requests, the resets and the link, and so by every step. -/

namespace Sys2Proof.Machine

open Sys2Proof

/-! ## Requests -/

/-- What a block that answers a request does to the part: the laws are upheld, and the link is held while the reply waits. -/
structure Part.Serves (p q : Part) : Prop extends p.Upholds q where
  held : p.Held q

theorem Part.Keeps.serves {p q : Part} (h : p.Keeps q) : p.Serves q := ⟨h.upholds, h.held⟩

theorem Part.Serves.refl (p : Part) : p.Serves p := (Part.Keeps.refl p).serves

theorem Part.Serves.trans {p q r : Part} (h : p.Serves q) (k : q.Serves r) : p.Serves r :=
  ⟨h.toUpholds.trans k.toUpholds, h.held.trans k.held⟩

theorem Part.ofLength_serves {n : Nat} {payload : List Byte} {h : Part → Answer} {p : Part} (k : p.Serves (h p).1) :
    p.Serves (Part.ofLength n payload h p).1 := by
  unfold Part.ofLength
  split
  · exact k
  · exact .refl p

theorem Part.atFixture_serves {payload : List Byte} {i : Nat} {h : FixtureIx → Part → Answer} {p : Part}
    (k : ∀ f, p.isFitted f = true → p.Serves (h f p).1) : p.Serves (Part.atFixture payload i h p).1 := by
  unfold Part.atFixture Part.namedFixture
  split
  · rename_i f hf
    split at hf
    · split at hf
      · rename_i h'; cases hf; exact k _ h'
      · cases hf
    · cases hf
  · exact .refl p

theorem Part.atChannel_serves {payload : List Byte} {i : Nat} {h : ChannelIx → Part → Answer} {p : Part}
    (k : ∀ c, p.Serves (h c p).1) : p.Serves (Part.atChannel payload i h p).1 := by
  unfold Part.atChannel
  split
  · exact k _
  · exact .refl p

theorem ite_some_eq_none {α : Type} {c : Prop} [Decidable c] {a : α} {o : Option α} :
    (if c then some a else o) = none ↔ ¬ c ∧ o = none := by
  split <;> simp [*]

theorem Part.openRefusal_eq_none {p : Part} {f : FixtureIx} : p.openRefusal f = none ↔
    (p.fx f).run.state = .none ∧ (p.con (consoleFor f)).stopLevel = false ∧ (p.fx f).supply.state ≠ .tripped ∧
      (p.fx f).supply.state ≠ .discharge ∧ (p.fx f).sense.presence = true ∧ (p.fx f).sense.lid = true := by
  unfold Part.openRefusal
  simp only [ite_some_eq_none]
  simp

/-- The run record that OPEN_RUN's fields give: ACTIVE, with nothing yet done or skipped. -/
theorem parseOpenRun_run {payload : List Byte} {now : BitVec 32} {u : Run} (h : parseOpenRun payload now = some u) :
    u.state = .active ∧ u.skipping = false := by
  simp only [parseOpenRun, Option.bind_eq_bind, Option.bind_eq_some_iff] at h
  obtain ⟨policy, _, priority, _, rate, _, _, _, hu⟩ := h
  cases hu
  exact ⟨rfl, rfl⟩

theorem Part.openAs_serves {p : Part} {f : FixtureIx} {u : Run} (hf : p.isFitted f = true) (hc : p.openRefusal f = none)
    (hu : u.state = .active) (hs : u.skipping = false) : p.Serves (p.openAs f u) := by
  obtain ⟨_, hstop, _, _, hpres, hlid⟩ := Part.openRefusal_eq_none.mp hc
  have ho : u.isOpen = true := Run.isOpen_iff.mpr (.inl hu)
  have h1 : p.Keeps (p.outputDefaults f) := p.outputDefaults_keeps f
  refine Part.Serves.trans (q := (p.outputDefaults f).modFx f _)
    ⟨⟨h1.laws.trans (Part.FixtureLaws.keepsLaws ?_), fun hi k hk => ?_⟩, .of_link rfl⟩
    (Part.postRunState_keeps _ f).serves
  · refine ⟨fun hcap => ⟨?_, by simp, by simp⟩, id, fun _ => ⟨fun _ => ho, fun _ => ho, fun _ _ _ => ho⟩,
      fun _ _ => ⟨by simp [ho], by simp [hu], by simp⟩, .inl, fun _ => .inl, fun _ => ⟨by simp, by simp [hs]⟩⟩
    simp only [List.length_nil, Nat.zero_add]
    split <;> omega
  · by_cases e : k = f
    · subst e
      refine ⟨hf, ?_, ?_, hstop⟩ <;> simpa [Part.outputDefaults] using ‹_›
    · rw [Part.modFx_fx_ne _ _ e] at hk ⊢
      have h' := h1.guarded
      obtain ⟨a, b, c, d⟩ := hi k (h'.opened k hk)
      exact ⟨a, (h'.presence k).trans b, (h'.lid k).trans c, d⟩

theorem Part.openRun_serves (p : Part) (payload : List Byte) : p.Serves (p.openRun payload).1 := by
  refine Part.ofLength_serves (Part.atFixture_serves fun f hf => ?_)
  split
  · exact .refl p
  · rename_i u hu
    split
    · exact .refl p
    · rename_i hc
      obtain ⟨hs, hk⟩ := parseOpenRun_run hu
      exact Part.openAs_serves hf hc hs hk

theorem Part.requestEnd_serves (p : Part) (payload : List Byte) : p.Serves (p.requestEnd payload).1 := by
  refine Part.ofLength_serves (Part.atFixture_serves fun f _ => ?_)
  split
  · rename_i ha
    have ho : (p.fx f).run.isOpen = true := Run.isOpen_iff.mpr (.inl ha)
    refine (Part.Keeps.trans (.trans (Part.FixtureKeeps.keeps (p := p) (f := f)
      (g := fun x => { x with run := { x.run with state := .closing } }) ?_) (Part.postRunState_keeps _ f))
      (Part.runQueue_keeps _ f)).serves
    have hc : ({ (p.fx f).run with state := .closing } : Run).isOpen = true := Run.isOpen_iff.mpr (.inr rfl)
    exact ⟨⟨id, id, fun _ => ⟨fun _ => hc, fun _ => hc, fun _ _ _ => hc⟩,
      fun _ hp => ⟨by rw [hc, hp.1, ho], by rw [hp.2.1, ha]; simp, hp.2.2⟩, .inl, fun _ => .inl, id⟩, fun _ => ho, rfl, rfl⟩
  · exact .refl p

theorem Part.requestAbort_serves (p : Part) (payload : List Byte) : p.Serves (p.requestAbort payload).1 := by
  refine Part.ofLength_serves (Part.atFixture_serves fun f _ => ?_)
  split
  · exact (p.haltRequest_keeps f _).serves
  · split <;> exact .refl p

theorem Part.clearRun_serves (p : Part) (payload : List Byte) : p.Serves (p.clearRun payload).1 := by
  refine Part.ofLength_serves (Part.atFixture_serves fun f _ => ?_)
  split
  · rename_i he
    have ho : (p.fx f).run.isOpen = false := by simp [Run.isOpen, he]
    have hn : ({ (p.fx f).run with state := .none } : Run).isOpen = false := rfl
    refine (Part.FixtureKeeps.keeps (p := p) (f := f)
      (g := fun x => { x with log := [], run := { x.run with state := .none } }) ?_).serves
    refine ⟨⟨fun hc => ⟨?_, hc.2⟩, id, fun hr => ?_, fun _ hp => ⟨by rw [hn, ← ho]; exact hp.1, by rw [hp.2.1, he]; simp, hp.2.2⟩,
      .inl, fun _ => .inl, fun hv => ⟨by simp, hv.2⟩⟩, fun h => absurd (hn ▸ h) nofun, rfl, rfl⟩
    · have := hc.1
      simp only [List.length_nil]; omega
    · rw [hn, ← ho]; exact hr f
  · exact .refl p

theorem Part.fixtureStatus_serves (p : Part) (payload : List Byte) : p.Serves (p.fixtureStatus payload).1 :=
  Part.ofLength_serves (Part.atFixture_serves fun _ _ => .refl p)

theorem Part.addSteps_keeps {p : Part} {f : FixtureIx} {steps : List Step}
    (h : (absorb (p.fx f).run.skipping steps).1.length ≤ 32 - (p.fx f).queue.length) : p.Keeps (p.modFx f fun x => x.addSteps steps) := by
  refine Part.FixtureKeeps.keeps ⟨⟨fun hc => ⟨hc.1, ?_, hc.2.2⟩, id, fun hr => hr f, fun _ => id, .inl, fun _ => .inl,
    fun hv => ⟨hv.1, fun hs => ?_⟩⟩, id, rfl, rfl⟩
  · have := hc.2.1
    simp only [Fixture.addSteps, List.length_append]
    omega
  · simp only [Fixture.addSteps, absorb] at hs ⊢
    split at hs
    · rename_i hsk
      rw [if_pos hsk]
      split at hs
      · cases hs
      · rename_i hm
        rw [if_neg hm]
        simp [hv.2 hsk]
    · cases hs

theorem Part.queueSteps_serves (p : Part) (payload : List Byte) : p.Serves (p.queueSteps payload).1 := by
  unfold Part.queueSteps
  split
  · exact .refl p
  · refine Part.atFixture_serves fun f _ => ?_
    dsimp only
    split
    · exact .refl p
    · split
      · exact .refl p
      · unfold Part.queueParsed
        split
        · exact .refl p
        · dsimp only
          split
          · exact .refl p
          · exact ((Part.addSteps_keeps (Nat.le_of_not_lt ‹_›)).trans (Part.runQueue_keeps _ f)).serves

theorem Part.readResults_serves (p : Part) (payload : List Byte) : p.Serves (p.readResults payload).1 := by
  refine Part.ofLength_serves (Part.atFixture_serves fun f _ => ?_)
  dsimp only
  split
  · exact .refl p
  · split
    · exact .refl p
    · refine (Part.Keeps.trans (Part.FixtureKeeps.keeps (p := p) (f := f)
        (g := fun x => { x with log := (p.fx f).log.drop (byteAt payload 1) }) ?_) (Part.runQueue_keeps _ f)).serves
      refine ⟨⟨fun hc => ⟨?_, hc.2⟩, id, fun hr => hr f, fun _ => id, .inl, fun _ => .inl,
        fun hv => ⟨fun r hr => hv.1 r (List.mem_of_mem_drop hr), hv.2⟩⟩, id, rfl, rfl⟩
      have := hc.1
      simp only [List.length_drop]; omega

theorem Part.releaseTrip_keeps {p : Part} {f : FixtureIx} (h : (p.fx f).supply.state = .tripped) : p.Keeps (p.releaseTrip f) :=
  (((Part.enterSupply_keeps (by simp) (by simp [h])).trans (Part.modSupply_keeps_of_same rfl rfl)).trans
    (Part.removeSafety_keeps _ f)).trans (Part.postSupplyEvent_keeps _ f _)

theorem Part.clearFault_serves (p : Part) (payload : List Byte) : p.Serves (p.clearFault payload).1 := by
  refine Part.ofLength_serves (Part.atFixture_serves fun f _ => ?_)
  dsimp only
  split
  · split
    · exact .refl p
    · exact (Part.releaseTrip_keeps ‹_›).serves
  · exact (p.removeSafety_keeps f).serves

theorem Part.defineChannel_serves (p : Part) (payload : List Byte) : p.Serves (p.defineChannel payload).1 := by
  refine Part.ofLength_serves (Part.atChannel_serves fun c => Part.atFixture_serves fun f _ => ?_)
  split
  · exact .refl p
  · split
    · exact (Part.modCh_keeps_of_stopped (p := p) (c := c) (g := fun _ => Channel.defined _) (by simp [Channel.defined])).serves
    · exact .refl p

theorem Part.readChannel_serves (p : Part) (payload : List Byte) : p.Serves (p.readChannel payload).1 :=
  Part.ofLength_serves (Part.atChannel_serves fun _ => .refl p)

theorem Part.clearChannel_serves (p : Part) (payload : List Byte) : p.Serves (p.clearChannel payload).1 := by
  refine Part.ofLength_serves (Part.atChannel_serves fun c => ?_)
  split
  · exact (Part.modCh_keeps_of_stopped (p := p) (c := c) (g := fun ch => { ch with state := .idle, fault := .none }) (by simp)).serves
  · exact .refl p

theorem Part.markReady_keeps (p : Part) (c : ChannelIx) (d : ChannelDef) (bk : Bank) : p.Keeps (p.markReady c d bk) := by
  unfold Part.markReady
  dsimp only
  split
  · rename_i hs
    refine .trans ?_ (Part.tryGrant_keeps _)
    have h : p.Keeps (p.modCh c fun ch => (ch.enter d bk).setReady bk false) :=
      Part.modCh_keeps_of_playing (.inr hs.1) (Channel.setReady_defn _ _ _)
    split
    · exact h.trans (Part.postChannel_keeps _ _ _ _)
    · exact h
  · exact Part.modCh_keeps_of_same (Channel.setReady_state _ _ _) (Channel.setReady_defn _ _ _)

theorem Part.markBankReady_serves (p : Part) (payload : List Byte) : p.Serves (p.markBankReady payload).1 := by
  refine Part.ofLength_serves (Part.atChannel_serves fun c => ?_)
  split
  · exact .refl p
  · exact .refl p
  · split
    · exact .refl p
    · split
      · exact .refl p
      · exact (p.markReady_keeps c _ _).serves

/-- A stored pattern in canonical form stays so under a write within the memory. -/
theorem Part.writeAll_keeps {p : Part} {a : Nat} {bs : List Byte} (h : a + bs.length ≤ patternBytes) :
    p.Keeps { p with pattern := Pattern.writeAll p.pattern a bs } where
  store := fun ⟨hw, hr⟩ => ⟨Pattern.writeAll_wf h hw, hr⟩
  capacity := id
  lend := id
  range := id
  run := id
  port := fun _ => id
  rack := id
  prompt := id
  verdict := id
  held := .of_link rfl
  guarded := ⟨rfl, fun _ => id, fun _ => rfl, fun _ => rfl, fun _ => rfl⟩

theorem Part.writePattern_serves (p : Part) (payload : List Byte) : p.Serves (p.writePattern payload).1 := by
  unfold Part.writePattern
  dsimp only
  split
  · exact .refl p
  · rename_i hn
    split
    · exact .refl p
    · rename_i hr
      split
      · exact .refl p
      · split
        · exact .refl p
        · refine (Part.writeAll_keeps ?_).serves
          simp only [List.length_drop, patternBytes]
          omega

theorem Part.readPattern_serves (p : Part) (payload : List Byte) : p.Serves (p.readPattern payload).1 := by
  refine Part.ofLength_serves ?_
  dsimp only
  split <;> exact .refl p

theorem Part.watchChanged_keeps (p : Part) (f : FixtureIx) (e : Fin 8) : p.Keeps (p.watchChanged f e) := by
  unfold Part.watchChanged
  dsimp only
  split
  · split
    · split <;> exact p.finish_keeps f _
    · exact .refl p
  · exact .refl p

theorem Part.defineWatch_serves (p : Part) (payload : List Byte) : p.Serves (p.defineWatch payload).1 := by
  refine Part.ofLength_serves (Part.atFixture_serves fun f _ => ?_)
  split
  · exact .refl p
  · exact ((p.modWatch_keeps f _ _).trans (Part.watchChanged_keeps _ f _)).serves

theorem Part.readWatch_serves (p : Part) (payload : List Byte) : p.Serves (p.readWatch payload).1 := by
  refine Part.ofLength_serves (Part.atFixture_serves fun f _ => ?_)
  split <;> exact .refl p

theorem Part.defineProbe_serves (p : Part) (payload : List Byte) : p.Serves (p.defineProbe payload).1 := by
  refine Part.ofLength_serves ?_
  split
  · exact .refl p
  · split
    · exact .refl p
    · refine Part.atFixture_serves fun f _ => ?_
      split
      · exact .refl p
      · split
        · exact .refl p
        · have h : ∀ v, p.Keeps { p with probes := v } := fun v => Part.SameSeen.keeps {} rfl rfl fun _ => rfl
          exact (h _).serves

theorem Part.readProbe_serves (p : Part) (payload : List Byte) : p.Serves (p.readProbe payload).1 := by
  refine Part.ofLength_serves ?_
  split <;> exact .refl p

theorem Part.lendMatrix_serves (p : Part) (payload : List Byte) : p.Serves (p.lendMatrix payload).1 := by
  refine Part.ofLength_serves ?_
  dsimp only
  split
  · exact .refl p
  · split
    · exact .refl p
    · exact (p.lendRequest_keeps _ _).serves

theorem Part.reclaimMatrix_serves (p : Part) (payload : List Byte) : p.Serves (p.reclaimMatrix payload).1 := by
  refine Part.ofLength_serves ?_
  split
  · exact .refl p
  · exact ((p.blockHold_keeps _).trans (Part.modLend_keeps (g := fun l => { l with matrix := .owned }) nofun)).serves
  · exact ((p.blockHold_keeps _).trans (Part.endLend_keeps _ _ _ _)).serves

theorem Part.setLendLimit_serves (p : Part) (payload : List Byte) : p.Serves (p.setLendLimit payload).1 := by
  refine Part.ofLength_serves ?_
  dsimp only
  split
  · exact (Part.modLend_keeps_of_same (p := p) (g := fun l => { l with holdLimit := u16At payload 0 }) rfl).serves
  · exact .refl p

theorem Part.configConsole_serves (p : Part) (payload : List Byte) : p.Serves (p.configConsole payload).1 := by
  refine Part.ofLength_serves ?_
  split
  · exact .refl p
  · dsimp only
    split
    · exact (Part.modCon_keeps_of_same (p := p) (g := fun x => { x with longTime := byteAt payload 1 }) rfl).serves
    · exact .refl p

theorem Part.consoleStatus_serves (p : Part) (payload : List Byte) : p.Serves (p.consoleStatus payload).1 := by
  refine Part.ofLength_serves ?_
  split <;> exact .refl p

theorem Part.modLink_upholds {p : Part} {g : Link → Link}
    (h : p.link.notices.length ≤ 32 → (g p.link).notices.length ≤ 32) : p.Upholds (p.modLink g) :=
  ⟨Part.modLink_keepsLaws h, fun hi => hi⟩

/-- A change of the link that leaves its notices. -/
theorem Part.modLink_upholds_of_same {p : Part} {g : Link → Link} (h : (g p.link).notices = p.link.notices) :
    p.Upholds (p.modLink g) := Part.modLink_upholds (by rw [h]; exact id)

theorem Part.partStatus_serves (p : Part) (payload : List Byte) : p.Serves (p.partStatus payload).1 :=
  Part.ofLength_serves ⟨Part.modLink_upholds_of_same (p := p) (g := fun l => { l with noticesLost := false }) rfl,
    fun _ => ⟨rfl, rfl, rfl, rfl, rfl⟩⟩

theorem Part.setLink_serves (p : Part) (payload : List Byte) : p.Serves (p.setLink payload).1 := by
  refine Part.ofLength_serves ?_
  dsimp only
  split
  · exact .refl p
  · exact ⟨Part.modLink_upholds_of_same (p := p) (g := fun l => { l with silenceTimeout := byteAt payload 0 }) rfl,
      fun _ => ⟨rfl, rfl, rfl, rfl, rfl⟩⟩

theorem Part.resetRequest_serves (p : Part) (payload : List Byte) : p.Serves (p.resetRequest payload).1 :=
  Part.ofLength_serves ⟨Part.modLink_upholds_of_same (p := p) (g := fun l => { l with resetPending := true }) rfl,
    fun _ => ⟨rfl, rfl, rfl, rfl, rfl⟩⟩

theorem Part.dispatch_serves (p : Part) (fr : Frame) : p.Serves (p.dispatch fr).1 := by
  unfold Part.dispatch
  split
  · exact Part.ofLength_serves (.refl p)
  · exact p.partStatus_serves _
  · exact p.setLink_serves _
  · exact p.resetRequest_serves _
  · exact p.openRun_serves _
  · exact p.requestEnd_serves _
  · exact p.requestAbort_serves _
  · exact p.clearRun_serves _
  · exact p.fixtureStatus_serves _
  · exact p.queueSteps_serves _
  · exact p.readResults_serves _
  · exact p.clearFault_serves _
  · exact p.defineChannel_serves _
  · exact p.readChannel_serves _
  · exact p.clearChannel_serves _
  · exact p.markBankReady_serves _
  · exact p.writePattern_serves _
  · exact p.readPattern_serves _
  · exact p.defineWatch_serves _
  · exact p.readWatch_serves _
  · exact p.defineProbe_serves _
  · exact p.readProbe_serves _
  · exact p.lendMatrix_serves _
  · exact p.reclaimMatrix_serves _
  · exact p.setLendLimit_serves _
  · exact p.configConsole_serves _
  · exact p.consoleStatus_serves _
  · exact .refl p

end Sys2Proof.Machine
end

section
/-! PROOFS. The laws of the part are kept by the resets and the link, and so by every step. -/

namespace Sys2Proof.Machine

open Sys2Proof

/-! ## Resets -/

theorem Part.each_modFx_fx {g : FixtureIx → Fixture → Fixture} {f : FixtureIx} {l : List FixtureIx} (hl : l.Nodup) (p : Part) :
    (p.each l fun k q => q.modFx k (g k)).fx f = if f ∈ l then g f (p.fx f) else p.fx f := by
  induction l generalizing p with
  | nil => rfl
  | cons k l ih =>
    obtain ⟨hk, hl⟩ := List.nodup_cons.mp hl
    rw [show p.each (k :: l) (fun k q => q.modFx k (g k)) = (p.modFx k (g k)).each l fun k q => q.modFx k (g k) from rfl, ih hl]
    by_cases e : f = k
    · subst e; simp [hk]
    · simp [e, Part.modFx_fx_ne _ _ e]

theorem Part.allFx_fx (p : Part) (g : FixtureIx → Fixture → Fixture) (f : FixtureIx) : (p.allFx g).fx f = g f (p.fx f) := by
  rw [Part.allFx, Part.each_modFx_fx (by decide), if_pos (mem_allFixtures f)]

/-- A fixture that a reset has left: no run, no step, no frame, no live supply. -/
structure Fixture.AtRest (x : Fixture) : Prop where
  run : x.run = {}
  queue : x.queue = []
  log : x.log = []
  inflight : x.inflight = none
  port : x.port = {}
  live : x.supply.live = false
  range : x.supply.range = .high

/-- A part that a reset has left: its fixtures are at rest, no channel plays, the matrix is its own and the lists are empty. -/
structure Part.AtRest (q : Part) : Prop where
  fixtures : ∀ f, (q.fx f).AtRest
  channels : ∀ c, (q.ch c).state ≠ .playing ∧ (q.ch c).state ≠ .starved
  matrix : q.lend.matrix = .owned
  entries : ∀ k, (q.con k).entries = []

theorem Part.AtRest.closed {q : Part} (h : q.AtRest) (f : FixtureIx) : (q.fx f).run.isOpen = false := by
  rw [(h.fixtures f).run]; rfl

/-- A part at rest meets every law but that of its stores. -/
theorem Part.AtRest.laws {q : Part} (h : q.AtRest) :
    q.CapacityLaw ∧ q.LendLaw ∧ q.RackLaw ∧ q.RunLaw ∧ q.PortLaw ∧ q.InterlockLaw ∧ q.RangeLaw ∧ q.VerdictLaw ∧ q.PromptLaw := by
  have hf := h.fixtures
  refine ⟨fun f => ?_, fun hm => ?_, fun _ f => (hf f).live, fun f => ⟨?_, ?_, fun c _ hc => ?_⟩, fun f => ?_, fun f ho => ?_,
    fun f hl => ?_, fun f => ⟨?_, fun _ => (hf f).queue⟩, Part.promptLaw_iff.mpr fun k => ?_⟩
  · rw [(hf f).log, (hf f).inflight, (hf f).queue, (hf f).port]; simp
  · rw [h.matrix] at hm; cases hm
  · rw [(hf f).live]; simp
  · rw [(hf f).inflight]; simp
  · exact absurd hc (not_or.mpr (h.channels c))
  · rw [h.closed f, (hf f).port, (hf f).run]; simp
  · rw [h.closed f] at ho; cases ho
  · rw [(hf f).range] at hl; cases hl
  · rw [(hf f).log]; simp
  · rw [h.entries k]; simp [Entries.Ordered]

theorem Part.AtRest.upholds {p q : Part} (h : q.AtRest) (hs : p.StoreLaw → q.StoreLaw) : p.Upholds q := by
  obtain ⟨hcap, hlend, hrack, hrun, hport, hlock, hrange, hverdict, hprompt⟩ := h.laws
  exact ⟨⟨hs, fun _ => hcap, fun _ => hlend, fun _ => hrange, fun _ => hrun, fun _ _ => hport, fun _ => hrack, fun _ => hprompt,
    fun _ => hverdict⟩, fun _ => hlock⟩

theorem Fixture.released_atRest (x : Fixture) (b : Bool) : (x.released b).AtRest := ⟨rfl, rfl, rfl, rfl, rfl, rfl, rfl⟩

theorem Fixture.commandReset_atRest (x : Fixture) (b : Bool) : (x.commandReset b).AtRest := by
  refine ⟨rfl, rfl, rfl, rfl, rfl, ?_, rfl⟩
  simp only [Fixture.commandReset, Supply.commandReset, Supply.live]
  split <;> rfl

theorem Fixture.held_atRest (x : Fixture) : x.held.AtRest := ⟨rfl, rfl, rfl, rfl, rfl, rfl, rfl⟩

/-- The channels of a part that has none defined are IDLE. -/
theorem Part.ch_default {p : Part} (h : p.channels = Vector.replicate 32 {}) (c : ChannelIx) :
    (p.ch c).state ≠ .playing ∧ (p.ch c).state ≠ .starved := by
  rw [Part.ch_congr (p := { channels := Vector.replicate 32 {} }) h, Part.ch, Vector.getElem_replicate]
  simp

theorem Part.released_atRest (p : Part) (cause : ResetCause) (rate : LinkRate) (fitted : FittedCount) :
    (p.released cause rate fitted).AtRest := by
  refine ⟨fun f => ?_, Part.ch_default rfl, rfl, fun k => by cases k <;> rfl⟩
  rw [Part.released, Part.allFx_fx]
  exact Fixture.released_atRest _ _

theorem Part.commandReset_ch (p : Part) (c : ChannelIx) : p.commandReset.ch c = (p.ch c).commandReset := by
  refine (Part.ch_congr (p := { p with channels := mapEntries Channel.commandReset p.channels }) rfl c).trans ?_
  simp only [Part.ch, getElem_mapEntries]

theorem Part.commandReset_atRest (p : Part) : p.commandReset.AtRest := by
  refine ⟨fun f => ?_, fun c => ?_, rfl, fun k => by cases k <;> rfl⟩
  · rw [Part.commandReset, Part.allFx_fx]
    exact Fixture.commandReset_atRest _ _
  · rw [Part.commandReset_ch, Channel.commandReset]
    split <;> simp [Channel.defined]

theorem Part.heldInReset_atRest (p : Part) : p.heldInReset.AtRest := by
  refine ⟨fun f => ?_, Part.ch_default rfl, rfl, fun k => by cases k <;> rfl⟩
  rw [Part.heldInReset, Part.allFx_fx]
  exact Fixture.held_atRest _

/-- The values that a reset gives Cref and the notice queue are within their bounds. -/
theorem Part.storeLaw_of_reset {q : Part} (hp : Pattern.wf q.pattern = true) (hc : q.conv.cref = 3000) (hn : q.link.notices = []) :
    q.StoreLaw := by
  refine ⟨hp, ?_, ?_, ?_⟩ <;> simp [hc, hn]

theorem Part.released_upholds (p : Part) (cause : ResetCause) (rate : LinkRate) (fitted : FittedCount) :
    p.Upholds (p.released cause rate fitted) :=
  (p.released_atRest cause rate fitted).upholds fun _ => Part.storeLaw_of_reset rfl rfl rfl

theorem Part.commandReset_upholds (p : Part) : p.Upholds p.commandReset :=
  p.commandReset_atRest.upholds fun h => Part.storeLaw_of_reset h.1 rfl rfl

theorem Part.heldInReset_upholds (p : Part) : p.Upholds p.heldInReset :=
  p.heldInReset_atRest.upholds fun _ => Part.storeLaw_of_reset rfl rfl rfl

/-! ## The link -/

theorem Part.handle_upholds (p : Part) (fr : Frame) : p.Upholds (p.handle fr) := by
  have reply : ∀ (q : Part) (r : Frame), q.Upholds (q.modLink fun l => { l with reply := some r }) := fun q r =>
    Part.modLink_upholds_of_same rfl
  exact ((reply p _).trans (Part.dispatch_serves _ fr).toUpholds).trans (reply _ _)

theorem Part.handleWaiting_upholds (p : Part) : p.Upholds p.handleWaiting := by
  unfold Part.handleWaiting
  split
  · exact .refl p
  · exact .ite (fun _ => .refl p) fun _ =>
      (Part.modLink_upholds_of_same (p := p) (g := fun l => { l with frameBuf := none }) rfl).trans (Part.handle_upholds _ _)

theorem Part.takeNext_upholds (p : Part) : p.Upholds p.takeNext := by
  unfold Part.takeNext
  split
  · rename_i fr _
    exact (Part.modLink_upholds_of_same (p := p) (g := fun l => { l with tx := .sending (.reply fr), reply := none }) rfl).trans
      (Part.handleWaiting_upholds _)
  · refine Part.modLink_upholds fun h => ?_
    split
    · rename_i hn
      rw [hn, List.length_cons] at h
      exact Nat.le_of_succ_le h
    · exact h

theorem Part.pump_upholds (p : Part) : p.Upholds p.pump := .ite (fun _ => p.takeNext_upholds) fun _ => .refl p

theorem Part.takeRequest_upholds (p : Part) (fr : Frame) : p.Upholds (p.takeRequest fr) :=
  .ite (fun _ => .refl p) fun _ => .ite (fun _ => Part.modLink_upholds_of_same rfl) fun _ =>
    (p.handle_upholds fr).trans (Part.pump_upholds _)

theorem Part.frameHeard_upholds (p : Part) : p.Upholds p.frameHeard := Part.modLink_upholds_of_same rfl

theorem Part.goodFrame_upholds (p : Part) (fr : Frame) : p.Upholds (p.goodFrame fr) :=
  .ite (fun _ => p.frameHeard_upholds) fun _ => p.frameHeard_upholds.trans (Part.takeRequest_upholds _ fr)

theorem Part.droppedRequest_upholds (p : Part) (fr : Frame) : p.Upholds (p.droppedRequest fr) :=
  .ite (fun _ => p.frameHeard_upholds) fun _ => .refl p

theorem Part.frameOut_upholds (p : Part) : p.Upholds p.frameOut := by
  unfold Part.frameOut
  split
  · exact .refl p
  · exact .ite (fun _ => p.commandReset_upholds) fun _ => p.takeNext_upholds

theorem Part.hunt_upholds (p : Part) : p.Upholds (p.modLink Link.hunt) := Part.modLink_upholds_of_same rfl

theorem Link.hunted_notices (l : Link) (b : Byte) : (l.hunted b).notices = l.notices := by
  unfold Link.hunted; split <;> rfl

theorem Link.reexamine_notices (l : Link) (x y : Byte) : (l.reexamine x y).notices = l.notices := by
  unfold Link.reexamine
  split
  · rfl
  · rw [Link.hunted_notices]; rfl

theorem Link.headerByte_notices (l : Link) (b : Byte) : (l.headerByte b).notices = l.notices := by
  unfold Link.headerByte
  dsimp only
  split
  · exact Link.reexamine_notices _ _ _
  · split <;> rfl

theorem Part.checkByte_upholds (p : Part) (b : Byte) : p.Upholds (p.checkByte b) := by
  unfold Part.checkByte
  dsimp only
  split
  · split
    · exact p.hunt_upholds.trans (Part.goodFrame_upholds _ _)
    · exact p.hunt_upholds
  · exact Part.modLink_upholds_of_same rfl

theorem Part.byteIn_upholds (p : Part) (b : Byte) : p.Upholds (p.byteIn b) := by
  have h : p.Upholds (p.modLink fun l => { l with lastByteAt := p.clock }) := Part.modLink_upholds_of_same rfl
  refine h.trans ?_
  unfold Part.byteIn
  dsimp only
  split
  · exact Part.modLink_upholds_of_same (Link.hunted_notices _ _)
  · exact Part.modLink_upholds_of_same (Link.headerByte_notices _ _)
  · exact Part.modLink_upholds_of_same rfl
  · exact Part.checkByte_upholds _ b

theorem Part.gapOver_upholds (p : Part) : p.Upholds p.gapOver :=
  .ite (fun _ => .refl p) fun _ => (p.advanceTo_keeps _).upholds.trans (Part.hunt_upholds _)

theorem Part.longHeader_upholds (p : Part) (x y : Byte) : p.Upholds (p.longHeader x y) :=
  .ite (fun _ => Part.modLink_upholds_of_same (Link.reexamine_notices _ _ _)) fun _ => .refl p

theorem Part.silenceOver_upholds (p : Part) : p.Upholds p.silenceOver := by
  unfold Part.silenceOver
  split
  · exact .refl p
  · exact ((p.advanceTo_keeps _).trans
      (.ite (fun _ => .each (fun f q => q.haltRequest_keeps f _) _ _) fun _ => .refl _)).upholds.trans
      (Part.modLink_upholds_of_same rfl)

/-! ## Every command and every step -/

/-- The outcome of a command upholds the laws of the part. -/
def State.Upholds (s : State) (o : Host.Outcome State Fault Refusal) : Prop := ∀ t, o = .next t → s.part.Upholds t.part

theorem State.event_upholds {h : Part → Part} {s : State} (k : s.part.Upholds (h s.part)) : s.Upholds (s.event h) := by
  intro t e
  cases e
  exact .ite (fun _ => k) fun _ => .refl _

theorem State.event_keeps {h : Part → Part} {s : State} (k : s.part.Keeps (h s.part)) : s.Upholds (s.event h) :=
  State.event_upholds k.upholds

theorem State.atPin_upholds {h : Part → Part} {s : State} (k : s.part.Upholds (h s.part)) : s.Upholds (s.atPin h) := by
  intro t e
  cases e
  exact k

theorem State.atPin_keeps {h : Part → Part} {s : State} (k : s.part.Keeps (h s.part)) : s.Upholds (s.atPin h) :=
  State.atPin_upholds k.upholds

theorem State.request_upholds (s : State) (ty tag : Byte) (payload : List Byte) : s.Upholds (s.request ty tag payload) :=
  State.event_upholds (Part.goodFrame_upholds _ _)

theorem exec_upholds (i : Instr) (s : State) : s.Upholds (exec i s) := by
  cases i with
  | identify tag payload => exact s.request_upholds _ _ _
  | partStatus tag payload => exact s.request_upholds _ _ _
  | setLink tag payload => exact s.request_upholds _ _ _
  | resetPart tag payload => exact s.request_upholds _ _ _
  | openRun tag payload => exact s.request_upholds _ _ _
  | endRun tag payload => exact s.request_upholds _ _ _
  | abortRun tag payload => exact s.request_upholds _ _ _
  | clearRun tag payload => exact s.request_upholds _ _ _
  | fixtureStatus tag payload => exact s.request_upholds _ _ _
  | queueSteps tag payload => exact s.request_upholds _ _ _
  | readResults tag payload => exact s.request_upholds _ _ _
  | clearFault tag payload => exact s.request_upholds _ _ _
  | defineChannel tag payload => exact s.request_upholds _ _ _
  | readChannel tag payload => exact s.request_upholds _ _ _
  | clearChannel tag payload => exact s.request_upholds _ _ _
  | markBankReady tag payload => exact s.request_upholds _ _ _
  | writePattern tag payload => exact s.request_upholds _ _ _
  | readPattern tag payload => exact s.request_upholds _ _ _
  | defineWatch tag payload => exact s.request_upholds _ _ _
  | readWatch tag payload => exact s.request_upholds _ _ _
  | defineProbe tag payload => exact s.request_upholds _ _ _
  | readProbe tag payload => exact s.request_upholds _ _ _
  | lendMatrix tag payload => exact s.request_upholds _ _ _
  | reclaimMatrix tag payload => exact s.request_upholds _ _ _
  | setLendLimit tag payload => exact s.request_upholds _ _ _
  | configConsole tag payload => exact s.request_upholds _ _ _
  | consoleStatus tag payload => exact s.request_upholds _ _ _
  | unknownRequest ty tag payload => exact State.event_upholds (Part.goodFrame_upholds _ _)
  | nonRequestFrame ty tag payload => exact State.event_upholds (Part.goodFrame_upholds _ _)
  | requestDropped ty tag payload => exact State.event_upholds (Part.droppedRequest_upholds _ _)
  | frameCheckFailed => exact State.event_upholds (h := fun p => p.modLink Link.hunt) (Part.hunt_upholds _)
  | lengthAbove1200 low high => exact State.event_upholds (Part.longHeader_upholds _ _ _)
  | receiveGapExpiry => exact State.event_upholds (Part.gapOver_upholds _)
  | framingError => exact State.event_upholds (h := fun p => p.modLink Link.hunt) (Part.hunt_upholds _)
  | transmitStart => exact State.event_upholds (Part.pump_upholds _)
  | frameSent => exact State.event_upholds (Part.frameOut_upholds _)
  | silenceTimeout => exact State.event_upholds (Part.silenceOver_upholds _)
  | powerOn rate fitted => exact State.atPin_upholds (Part.released_upholds _ _ _ _)
  | brownout rate fitted => exact State.atPin_upholds (Part.released_upholds _ _ _ _)
  | fixtureSwitchRawChange f sw closed => exact State.atPin_keeps (Part.switchRaw_keeps _ _ _ _)
  | fixtureSenseDebounced f sw => exact State.event_upholds (Part.senseDebounced_upholds _ _ _)
  | stepStart f => exact State.event_keeps (Part.runQueue_keeps _ _)
  | stepTimeout f => exact State.event_keeps (Part.stepTimedOut_keeps _ _)
  | waitExpiry f => exact State.event_keeps (Part.waitOver_keeps _ _)
  | quiescentReadingDue f => exact State.event_keeps (Part.readingDue_keeps _ _)
  | recordGrant => exact State.event_keeps (Part.tryGrant_keeps _)
  | transferEnd => exact State.event_keeps (Part.transferOver_keeps _)
  | dwellExpiry c => exact State.event_keeps (Part.dwellOver_keeps _ _)
  | periodStart f => exact State.event_keeps (Part.periodStarts_keeps _ _)
  | phaseBoundary f => exact State.event_keeps (Part.phaseEnds_keeps _ _)
  | lineLevelChange f line level => exact State.atPin_keeps (Part.lineLevel_keeps _ _ _ _)
  | captureOverflow f => exact State.event_keeps (Part.overflows_keeps _ _)
  | frameReceived f frame => exact State.event_keeps (Part.frameEnds_keeps _ _ _)
  | attemptStart f => exact State.event_keeps (Part.attemptBegins_keeps _ _)
  | attemptEnd f outcome => exact State.event_keeps (Part.attemptOver_keeps _ _ _)
  | inRegulation f holds => exact State.atPin_keeps (Part.regulation_keeps _ _ _)
  | atLimitHolds f => exact State.event_keeps (Part.limitHolds_keeps _ _)
  | atLimitClears f => exact State.event_keeps (Part.limitClears_keeps _ _)
  | below500mv f holds => exact State.atPin_keeps (Part.below_keeps _ _ _)
  | rampTimerExpiry f => exact State.event_keeps (Part.rampOver_keeps _ _)
  | limitTimerExpiry f => exact State.event_keeps (Part.limitOver_keeps _ _)
  | dischargeTimerExpiry f => exact State.event_keeps (Part.dischargeOver_keeps _ _)
  | bypassComparator f => exact State.event_keeps (Part.rangeHigh_keeps _ _)
  | rackLevel mv => exact State.atPin_keeps (Part.rackMoves_keeps _ _)
  | burstGrant => exact State.event_keeps (Part.tryBurst_keeps _)
  | settleEnd => exact State.event_keeps (Part.settleOver_keeps _)
  | senseReadyChange f ready => exact State.atPin_keeps (Part.senseReady_keeps _ _ _)
  | readyWaitExpiry => exact State.event_keeps (Part.readyOver_keeps _)
  | burstEnd codes => exact State.event_keeps (Part.burstOver_keeps _ _)
  | referenceTimer => exact State.event_keeps (Part.referenceOver_keeps _)
  | holdLineRise => exact State.atPin_keeps (Part.holdRises_keeps _)
  | holdLineDrop => exact State.atPin_keeps (Part.holdDrops_keeps _)
  | lendGrant => exact State.event_keeps (Part.lendGranted_keeps _)
  | lendLimitExpiry => exact State.event_keeps (Part.lendOverruns_keeps _)
  | buttonDown c k => exact State.atPin_keeps (Part.buttonGoesDown_keeps _ _ _)
  | pressHeld c k => exact State.event_keeps (Part.pressReaches60ms_keeps _ _ _)
  | buttonUp c k => exact State.atPin_keeps (Part.buttonGoesUp_keeps _ _ _)
  | longTimeReached c k => exact State.event_keeps (Part.pressReachesLongTime_keeps _ _ _)
  | stopSwitchRawChange c pressed => exact State.atPin_keeps (Part.stopRawChange_keeps _ _ _)
  | consoleStop c => exact State.event_upholds (Part.stopSettled_upholds _ _)
  | flashClockPhase => exact State.event_keeps (Part.flashTurns_keeps _)
  | byteReceived b => exact State.event_upholds (Part.byteIn_upholds _ _)
  | logicSupplyLoss => exact State.atPin_upholds (Part.heldInReset_upholds _)

/-- Every step upholds every law of the part. -/
theorem step_upholds {s t : State} (h : step s = .next t) : s.part.Upholds t.part := by
  unfold step at h
  split at h
  · unfold State.tick at h
    split at h
    · split at h
      · exact exec_upholds _ s t h
      · cases h
        exact (Part.advanceTo_keeps _ _).upholds
    · cases h
      exact .refl _
  · rename_i rest _
    exact exec_upholds _ { s with pending := rest } t h

/-- Settles O57: a step upholds every law of the part. -/
theorem stepsKeepStoresLendsAndRanges : Obligations.StepsKeepStoresLendsAndRanges := by
  unfold Obligations.StepsKeepStoresLendsAndRanges
  refine ⟨fun s t hstore hcap h => ?_, fun s t hlend hrange h => ?_⟩
  · have k := step_upholds h
    exact ⟨k.store hstore, k.capacity hcap⟩
  · have k := step_upholds h
    exact ⟨k.lend hlend, k.range hrange⟩

/-- Settles O58: a step upholds every law of the part. -/
theorem stepsKeepTheRunLaws : Obligations.StepsKeepTheRunLaws := by
  unfold Obligations.StepsKeepTheRunLaws
  intro s t hrun hrack hport h
  have k := step_upholds h
  exact ⟨k.run hrun, k.rack hrack, k.port hrun hport⟩

/-- Settles O59: a step upholds every law of the part. -/
theorem stepsKeepTheInterlock : Obligations.StepsKeepTheInterlock := by
  unfold Obligations.StepsKeepTheInterlock
  intro s t hi h
  exact (step_upholds h).interlock hi

/-- Settles O60: a step upholds every law of the part. -/
theorem stepsKeepThePromptAndVerdictLaws : Obligations.StepsKeepThePromptAndVerdictLaws := by
  unfold Obligations.StepsKeepThePromptAndVerdictLaws
  intro s t hp hv h
  have k := step_upholds h
  exact ⟨k.prompt hp, k.verdict hv⟩

/-- Settles O56: the part right after the release is at rest. -/
theorem lawsHoldAtReset : Obligations.LawsHoldAtReset := by
  unfold Obligations.LawsHoldAtReset
  have h : State.reset.part.AtRest := by
    refine ⟨fun f => ?_, Part.ch_default rfl, rfl, fun k => by cases k <;> rfl⟩
    have e : State.reset.part.fx f = {} := Vector.getElem_replicate _
    rw [e]
    exact ⟨rfl, rfl, rfl, rfl, rfl, rfl, rfl⟩
  exact ⟨Part.storeLaw_of_reset rfl rfl rfl, h.laws⟩

end Sys2Proof.Machine
end

section
/-! PROOFS. Commands and steps: how a step takes its command, what every command leaves alone, and what time and a notice do. -/

namespace Sys2Proof.Machine

open Sys2Proof

/-! ## Two forms of command -/

/-- A command that does not reach a part held in reset is an event of a running part. -/
theorem exec_eq_event {c : Instr} (h : reachesHeld c = false) : ∃ g, ∀ s, exec c s = State.event g s := by
  cases c
  case frameCheckFailed => exact ⟨fun p => p.modLink Link.hunt, fun _ => rfl⟩
  case framingError => exact ⟨fun p => p.modLink Link.hunt, fun _ => rfl⟩
  all_goals cases h <;> exact ⟨_, fun _ => rfl⟩

/-- A command that reaches a part held in reset acts on it as on a running one. -/
theorem exec_eq_atPin {c : Instr} (h : reachesHeld c = true) : ∃ g, ∀ s, exec c s = State.atPin g s := by
  cases c <;> cases h <;> exact ⟨_, fun _ => rfl⟩

theorem State.event_powered {s : State} (h : s.part.powered = true) (g : Part → Part) : s.event g = .next { s with part := g s.part } := by
  simp [State.event, h]

theorem State.event_held {s : State} (h : s.part.powered = false) (g : Part → Part) : s.event g = .next s := by
  simp [State.event, h]

/-- Settles O1, by the definition of a step. -/
theorem stepTakesTheFrontCommand : Obligations.StepTakesTheFrontCommand := by
  unfold Obligations.StepTakesTheFrontCommand
  refine ⟨fun c rest p => rfl, fun p => ⟨fun h => ?held, fun h c hc => ?due, fun h hn => ?quiet⟩⟩
  case held => simp [step, State.tick, h]
  case due => simp [step, State.tick, h, hc]
  case quiet => simp [step, State.tick, h, hn, Part.microsecond]

/-- Settles O2: each command is one event of the part. -/
theorem noCommandStopsThePart : Obligations.NoCommandStopsThePart := by
  unfold Obligations.NoCommandStopsThePart
  intro c s
  cases h : reachesHeld c with
  | false => obtain ⟨g, e⟩ := exec_eq_event h; exact ⟨_, e s, rfl⟩
  | true => obtain ⟨g, e⟩ := exec_eq_atPin h; exact ⟨_, e s, rfl⟩

/-- Settles O4: a command that does not reach a part held in reset is an event, which a held part does not take. -/
theorem heldInResetDoesNothing : Obligations.HeldInResetDoesNothing := by
  unfold Obligations.HeldInResetDoesNothing
  intro c s hp hc
  obtain ⟨g, e⟩ := exec_eq_event hc
  rw [e s, State.event_held hp]

/-! ## Time and notices -/

theorem Fixture.count_zero (x : Fixture) : x.count 0 = x := by
  unfold Fixture.count
  split
  · cases x; simp
  · rfl

/-- The capture unit of a fixture as time passes: a COUNTING one alone counts. -/
theorem Part.advanceTo_capture (p : Part) (t : Nat) (f : FixtureIx) :
    ((p.advanceTo t).fx f).capture =
      if (p.fx f).capture.state = .counting then
        { (p.fx f).capture with
          total := (p.fx f).capture.total + (t - p.clock)
          high := (p.fx f).capture.high + if (p.fx f).outs.reads (p.fx f).capture.line then t - p.clock else 0 }
      else (p.fx f).capture := by
  have e : (p.advanceTo t).fx f = (p.fx f).count (t - p.clock) := by
    by_cases h : t ≤ p.clock
    · rw [Part.advanceTo_past h, Nat.sub_eq_zero_of_le h, Fixture.count_zero]
    · simp [Part.advanceTo, h, Part.fx]
  rw [e, Fixture.count]
  cases (p.fx f).capture.state <;> simp

theorem Part.post_free {p : Part} (htx : p.link.tx = .free) (hr : p.link.reply = none) (hn : p.link.notices = []) (n : Notice) :
    p.post n = { p with link := { p.link with tx := .sending (.notice n) } } := by
  simp [Part.post, Part.modLink, htx, hr, hn]

theorem Part.post_queued {p : Part} (h : p.link.tx ≠ .free ∨ p.link.reply ≠ none ∨ p.link.notices ≠ [])
    (hn : p.link.notices.length < 32) (n : Notice) :
    p.post n = { p with link := { p.link with notices := p.link.notices ++ [n] } } := by
  have h' : ¬ (p.link.tx = .free ∧ p.link.reply = none ∧ p.link.notices = []) := by tauto
  simp only [Part.post, Part.modLink, if_neg h', if_pos hn]

theorem Part.post_lost {p : Part} (h : 32 ≤ p.link.notices.length) (n : Notice) :
    p.post n = { p with link := { p.link with noticesLost := true } } := by
  have h' : ¬ (p.link.tx = .free ∧ p.link.reply = none ∧ p.link.notices = []) := by
    rintro ⟨_, _, e⟩
    simp [e] at h
  simp only [Part.post, Part.modLink, if_neg h', if_neg (Nat.not_lt.mpr h)]

/-- Settles O3. -/
theorem timeCountsAndNoticesQueue : Obligations.TimeCountsAndNoticesQueue := by
  unfold Obligations.TimeCountsAndNoticesQueue
  refine ⟨fun p t => ⟨p.advanceTo_rest t, p.advanceTo_clock t, fun f => ⟨?_, p.advanceTo_capture t f⟩⟩,
    fun p n => ⟨fun htx hr hn => Part.post_free htx hr hn n, fun h hn => Part.post_queued h hn n, fun h => Part.post_lost h n⟩⟩
  rw [p.advanceTo_fx_eq t f]

end Sys2Proof.Machine
end

section
/-! PROOFS. The three resets, block by block. -/

namespace Sys2Proof.Machine

open Sys2Proof

/-! ## A function on every fixture -/

theorem Part.fixtures_ext {p q : Part} (h : ∀ f, p.fx f = q.fx f) : p.fixtures = q.fixtures :=
  Vector.ext fun i hi => h ⟨i, hi⟩

/-- A function on every fixture changes the fixtures alone, and those it changes are the part's own. -/
theorem Part.allFx_eq {p q : Part} (g : FixtureIx → Fixture → Fixture) (h : ∀ f, p.fx f = q.fx f) :
    p.allFx g = { p with fixtures := (q.allFx g).fixtures } := by
  have e : (p.allFx g).fixtures = (q.allFx g).fixtures :=
    Part.fixtures_ext fun f => by rw [Part.allFx_fx, Part.allFx_fx, h]
  have r : ∀ (l : List FixtureIx) (v : Part), v.each l (fun f x => x.modFx f (g f)) =
      { v with fixtures := (v.each l (fun f x => x.modFx f (g f))).fixtures } := by
    intro l
    induction l with
    | nil => intro v; rfl
    | cons f l ih => intro v; exact ih _
  rw [← e]
  exact r _ p

theorem Part.heldInReset_fx (p : Part) (f : FixtureIx) : p.heldInReset.fx f = (p.fx f).held := Part.allFx_fx _ _ f

theorem Part.released_fx (p : Part) (cause : ResetCause) (rate : LinkRate) (fitted : FittedCount) (f : FixtureIx) :
    (p.released cause rate fitted).fx f = (p.fx f).released (f.val < fittedCount fitted) := Part.allFx_fx _ _ f

theorem Part.commandReset_fx (p : Part) (f : FixtureIx) : p.commandReset.fx f = (p.fx f).commandReset (p.isFitted f) :=
  Part.allFx_fx _ _ f

/-! ## Loss of the logic supply -/

/-- The outputs of a part that holds reset stand at their reset levels. -/
theorem Part.outputs_held {p : Part} (h : p.powered = false) (f : FixtureIx) :
    p.lidLock f = false ∧ p.outputConnected f = false ∧ p.dischargeLoad f = true ∧ p.bypassClosed f = true ∧ p.pwmPin f = false ∧
      p.pulsePin f = false ∧ p.lamps f = (.off, .off, .off) := by
  simp [Part.lidLock, Part.outputConnected, Part.dischargeLoad, Part.bypassClosed, Part.pwmPin, Part.pulsePin, Part.lamps, h]

theorem Console.held_pins (c : Console) :
    c.held.display = (none, List.replicate 20 0x20, List.replicate 20 0x20) ∧ c.held.stopRaw = c.stopRaw ∧
      ∀ b, (c.held.button b).down = (c.button b).down :=
  ⟨rfl, rfl, fun b => by cases b <;> rfl⟩

/-! ## Release of a power-on or brownout reset -/

theorem Watch.ofDefault {x : Fixture} (h : x.watch = Vector.replicate 8 {}) (e : Fin 8) : x.watchOf e = {} := by
  simp [Fixture.watchOf, h]

theorem Part.released_brownout (p : Part) (rate : LinkRate) (fitted : FittedCount) :
    p.released .brownout rate fitted =
      { p.released .powerOn rate fitted with
        cause := .brownout
        link := { (p.released .powerOn rate fitted).link with tx := .sending (.notice (.ready .brownout)) } } := by
  unfold Part.released
  rw [Part.allFx_eq (q := { freeIndex := p.freeIndex, rate := rate, fitted := fitted, cause := .powerOn, fixtures := p.fixtures
                            lend := p.lend.released, rack := { mv := p.rack.mv, level := RackLevel.loaded p.rack.mv }
                            consoleA := p.consoleA.released, consoleB := p.consoleB.released
                            link := { tx := .sending (.notice (.ready .powerOn)) } }) _ fun _ => rfl]
  rfl

theorem Sense.atRelease_levels (s : Sense) (b : Bool) :
    (s.atRelease b).presence = (b && s.rawPresence) ∧ (s.atRelease b).lid = (b && s.rawLid) ∧ (s.atRelease b).presenceDue = none ∧
      (s.atRelease b).lidDue = none := by
  cases b <;> exact ⟨rfl, rfl, rfl, rfl⟩

theorem ButtonState.released_down (b : ButtonState) :
    b.released.down = b.down ∧
      b.released.press.map (fun q => (q.phase, q.bound)) = if b.down then some (.cancelled, none) else none := by
  refine ⟨rfl, ?_⟩
  unfold ButtonState.released
  split <;> rfl

theorem Console.released_button (c : Console) (b : Button) : c.released.button b = (c.button b).released := by cases b <;> rfl

theorem Part.released_con (p : Part) (cause : ResetCause) (rate : LinkRate) (fitted : FittedCount) (k : ConsoleId) :
    (p.released cause rate fitted).con k = (p.con k).released := by cases k <;> rfl

/-- Settles O5, block by block. -/
theorem resetsLoadEveryBlock : Obligations.ResetsLoadEveryBlock := by
  unfold Obligations.ResetsLoadEveryBlock
  refine ⟨fun s => ⟨_, rfl, rfl, rfl, rfl, rfl, rfl, rfl, fun f => ?lost, fun k => ?console, rfl, rfl⟩,
    fun s r n => ⟨_, rfl, rfl, ?brownout, rfl, rfl, rfl, rfl, rfl, fun f => ?fixture, fun c => ?channel, fun _ => rfl, rfl,
      fun k => ?probe, fun f => ?request, rfl, rfl, rfl, rfl, rfl, rfl, rfl, rfl, rfl, fun k => ?desk, rfl, rfl⟩⟩
  case lost =>
    dsimp only
    obtain ⟨h1, h2, h3, h4, h5, h6, h7⟩ := s.part.heldInReset.outputs_held rfl f
    refine ⟨h1, h2, h3, h4, h5, h6, h7, ?_⟩
    rw [Part.heldInReset_fx]
    exact ⟨rfl, rfl, rfl, rfl, rfl, rfl, rfl, rfl, rfl, rfl, rfl, rfl, rfl, rfl⟩
  case console =>
    cases k
    · exact s.part.consoleA.held_pins
    · exact s.part.consoleB.held_pins
  case brownout => exact congrArg (fun q => Host.Outcome.next { s with part := q }) (Part.released_brownout s.part r n)
  case fixture =>
    dsimp only
    rw [Part.released_fx]
    obtain ⟨hp, hl, hpd, hld⟩ := (s.part.fx f).sense.atRelease_levels (decide (f.val < fittedCount n))
    exact ⟨rfl, rfl, rfl, rfl, hp, hl, hpd, hld, rfl, rfl, rfl, rfl, rfl, rfl, rfl, rfl, rfl, rfl, rfl, rfl, rfl, rfl, rfl, rfl, rfl,
      rfl, rfl, Watch.ofDefault rfl⟩
  case channel => exact Vector.getElem_replicate _
  case probe => exact Vector.getElem_replicate _
  case request => exact Vector.getElem_replicate _
  case desk =>
    dsimp only
    rw [Part.released_con]
    refine ⟨rfl, rfl, rfl, rfl, fun b => ?_⟩
    rw [Console.released_button]
    exact ButtonState.released_down _

/-! ## Command reset -/

theorem Part.frameOut_reset {p : Part} {tag : Byte} (hr : p.link.resetPending = true)
    (ht : p.link.tx = .sending (.reply { ty := 0x84, tag := tag, payload := [0] })) : p.frameOut = p.commandReset := by
  simp [Part.frameOut, Link.resetDue, ht, hr]

theorem Channel.commandReset_eq (ch : Channel) :
    ch.commandReset = { defn := ch.defn, position := (ch.defn.map fun d => d.start d.first).getD 0 } := by
  unfold Channel.commandReset
  split <;> rename_i h <;> rw [h] <;> rfl

theorem Fixture.commandReset_watchOf (x : Fixture) (b : Bool) (e : Fin 8) :
    (x.commandReset b).watchOf e =
      { enabled := (x.watchOf e).enabled, extended := (x.watchOf e).extended, id := (x.watchOf e).id, mask := (x.watchOf e).mask } :=
  getElem_mapEntries _ _ _ _

theorem Supply.commandReset_eq (s : Supply) (b : Bool) :
    s.commandReset b =
      { state := if s.below500 = true ∨ b = false then .off else .discharge, below500 := s.below500 } := by
  simp [Supply.commandReset]

theorem Part.commandReset_con (p : Part) (k : ConsoleId) : p.commandReset.con k = (p.con k).commandReset p.clock := by cases k <;> rfl

/-- Settles O6, block by block. -/
theorem commandResetKeepsDefinitions : Obligations.CommandResetKeepsDefinitions := by
  unfold Obligations.CommandResetKeepsDefinitions
  intro s tag hp hr ht
  have e : exec .frameSent s = .next { s with part := s.part.commandReset } := by
    rw [← Part.frameOut_reset hr ht]
    exact State.event_powered hp _
  refine ⟨_, e, rfl, rfl, rfl, rfl, rfl, rfl, rfl, rfl, rfl, rfl, rfl, fun f => ?fixture, fun c => ?channel, rfl, rfl, fun f => ?request,
    rfl, rfl, rfl, fun k => ?console⟩
  case fixture =>
    dsimp only
    rw [Part.commandReset_fx]
    exact ⟨rfl, rfl, rfl, rfl, rfl, rfl, rfl, Supply.commandReset_eq _ _, fun e => Fixture.commandReset_watchOf _ _ e⟩
  case channel =>
    dsimp only
    rw [Part.commandReset_ch, Channel.commandReset_eq]
    exact ⟨rfl, rfl, rfl, rfl, rfl, rfl, rfl, rfl, rfl, rfl⟩
  case request => exact Vector.getElem_replicate _
  case console =>
    dsimp only
    rw [Part.commandReset_con]
    exact ⟨rfl, rfl, rfl⟩

end Sys2Proof.Machine
end

section
/-! PROOFS. The frame check: a byte enters the register bit by bit, and the check run over itself ends at 0. -/

namespace Sys2Proof.Machine

open Sys2Proof

/-- One bit into the register (R174). -/
def crcTakes (r : BitVec 16) (bit : Bool) : BitVec 16 := if r.msb = bit then r <<< 1 else (r <<< 1) ^^^ 0x1021#16

/-- A shift takes in the top bit of what is added to the register, and shifts the rest of it on. -/
theorem crcShift_xor (c x : BitVec 16) : crcShift (c ^^^ x) = crcTakes c x.msb ^^^ (x <<< 1) := by
  have swap : c <<< 1 ^^^ x <<< 1 ^^^ 0x1021#16 = c <<< 1 ^^^ 0x1021#16 ^^^ x <<< 1 := by
    rw [BitVec.xor_assoc, BitVec.xor_comm (x <<< 1), BitVec.xor_assoc]
  unfold crcShift crcTakes
  rw [BitVec.msb_xor, BitVec.shiftLeft_xor_distrib]
  cases c.msb <;> cases x.msb <;> simp [swap]

/-- The bits of a byte in the register's upper half, as they come to its top. -/
theorem msb_byte_shiftLeft (b : Byte) {k : Nat} (h : k < 8) : ((b.zeroExtend 16 <<< 8) <<< k).msb = b.getLsbD (7 - k) := by
  have h1 : k ≤ 15 := by omega
  have h2 : ¬ 15 - k < 8 := by omega
  have e : 15 - k - 8 = 7 - k := by omega
  simp [BitVec.msb_eq_getLsbD_last, h1, h2, e]

theorem byte_shiftLeft_out (b : Byte) : (b.zeroExtend 16 <<< 8) <<< 8 = 0#16 := by
  rw [← BitVec.shiftLeft_add, BitVec.shiftLeft_eq_zero]
  decide

/-- The next bit of a byte that has been shifted `k` times enters the register. -/
theorem crcShift_byte (c : BitVec 16) (b : Byte) {k : Nat} (h : k < 8) :
    crcShift (c ^^^ ((b.zeroExtend 16 <<< 8) <<< k)) =
      crcTakes c (b.getLsbD (7 - k)) ^^^ ((b.zeroExtend 16 <<< 8) <<< (k + 1)) := by
  rw [crcShift_xor, msb_byte_shiftLeft b h, ← BitVec.shiftLeft_add]

/-- A byte enters the register most significant bit first. -/
theorem crcByte_eq (c : BitVec 16) (b : Byte) :
    crcByte c b = [7, 6, 5, 4, 3, 2, 1, 0].foldl (fun r (k : Nat) => crcTakes r (b.getLsbD k)) c := by
  have e : c ^^^ (b.zeroExtend 16 <<< 8) = c ^^^ ((b.zeroExtend 16 <<< 8) <<< 0) := by rw [BitVec.shiftLeft_zero]
  unfold crcByte
  rw [e, crcShift_byte _ _ (by decide), crcShift_byte _ _ (by decide), crcShift_byte _ _ (by decide), crcShift_byte _ _ (by decide),
    crcShift_byte _ _ (by decide), crcShift_byte _ _ (by decide), crcShift_byte _ _ (by decide), crcShift_byte _ _ (by decide),
    byte_shiftLeft_out, BitVec.xor_zero]
  rfl

/-- A bit that agrees with the top of the register is shifted out without a trace. -/
theorem crcTakes_own (c : BitVec 16) {k : Nat} {bit : Bool} (h : bit = (c <<< k).msb) : crcTakes (c <<< k) bit = c <<< (k + 1) := by
  rw [crcTakes, if_pos h.symm, ← BitVec.shiftLeft_add]

/-- A byte that is the upper half of the register is shifted out without a trace. -/
theorem crcByte_own {c : BitVec 16} {b : Byte} (h : ∀ k < 8, b.getLsbD (7 - k) = (c <<< k).msb) : crcByte c b = c <<< 8 := by
  rw [crcByte_eq]
  simp only [List.foldl_cons, List.foldl_nil]
  have e : crcTakes c (b.getLsbD 7) = c <<< 1 := by
    have first := crcTakes_own c (h 0 (by decide))
    rwa [BitVec.shiftLeft_zero] at first
  rw [e, crcTakes_own c (h 1 (by decide)), crcTakes_own c (h 2 (by decide)), crcTakes_own c (h 3 (by decide)),
    crcTakes_own c (h 4 (by decide)), crcTakes_own c (h 5 (by decide)), crcTakes_own c (h 6 (by decide)),
    crcTakes_own c (h 7 (by decide))]

theorem crc16_append (l m : List Byte) : crc16 (l ++ m) = m.foldl crcByte (crc16 l) := List.foldl_append

theorem msb_shiftLeft_16 {c : BitVec 16} {k : Nat} (h : k < 16) : (c <<< k).msb = c.getLsbD (15 - k) := by
  have h1 : ¬ 15 < k := by omega
  rw [BitVec.msb_eq_getLsbD_last, BitVec.getLsbD_shiftLeft]
  simp [h1, BitVec.getLsbD_eq_getElem (show 15 - k < 16 by omega)]

/-- Any register that takes in its own two bytes, the high one first, ends at 0. -/
theorem crcByte_high_low (c : BitVec 16) :
    crcByte (crcByte c (BitVec.ofNat 8 (c.toNat / 256))) (BitVec.ofNat 8 c.toNat) = 0 := by
  have high : crcByte c (BitVec.ofNat 8 (c.toNat / 256)) = c <<< 8 := crcByte_own fun k h => by
    have e : 7 - k + 8 = 15 - k := by omega
    rw [msb_shiftLeft_16 (by omega), BitVec.getLsbD_ofNat, show (256 : Nat) = 2 ^ 8 from rfl, Nat.testBit_div_two_pow, e]
    simp [BitVec.testBit_toNat]; omega
  have low : crcByte (c <<< 8) (BitVec.ofNat 8 c.toNat) = c <<< 8 <<< 8 := crcByte_own fun k h => by
    have e : 15 - (8 + k) = 7 - k := by omega
    rw [← BitVec.shiftLeft_add, msb_shiftLeft_16 (by omega), BitVec.getLsbD_ofNat, BitVec.testBit_toNat, e]
    simp; omega
  rw [high, low, ← BitVec.shiftLeft_add, BitVec.shiftLeft_eq_zero (by decide)]
  rfl

/-- Settles O7: each bit of a byte enters by R174, and the two bytes of the check are the register's own. -/
theorem checkOverItsOwnCheckIsZero : Obligations.CheckOverItsOwnCheckIsZero := by
  unfold Obligations.CheckOverItsOwnCheckIsZero
  refine ⟨rfl, fun l b => ?_, by decide +kernel, fun l => ?_⟩
  · rw [crc16_append]
    exact crcByte_eq _ b
  · rw [crc16_append]
    exact crcByte_high_low _

end Sys2Proof.Machine
end

section
/-! PROOFS. The receiver: the bytes of a frame one after another, and the frames it drops or lets wait. -/

namespace Sys2Proof.Machine

open Sys2Proof

/-! ## A frame under assembly -/

/-- The part with a frame under assembly, its last byte just received. -/
def Part.assembling (p : Part) (rx : RxState) (buf : List Byte) : Part :=
  p.modLink fun l => { l with rx := rx, rxBuf := buf, lastByteAt := p.clock }

theorem State.receive_cons {s : State} {p : Part} (hp : p.powered = true) (b : Byte) (bs : List Byte) :
    (s.withPart p).receive (b :: bs) = (s.withPart (p.byteIn b)).receive bs := by
  have e : exec (.byteReceived b) (s.withPart p) = .next (s.withPart (p.byteIn b)) := State.event_powered hp _
  rw [State.receive, e]

theorem State.receive_assembling {s : State} {p : Part} {rx : RxState} {buf : List Byte} (hp : p.powered = true) (b : Byte)
    (bs : List Byte) :
    (s.withPart (p.assembling rx buf)).receive (b :: bs) = (s.withPart ((p.assembling rx buf).byteIn b)).receive bs :=
  State.receive_cons (p := p.assembling rx buf) hp b bs

theorem Part.byteIn_start {p : Part} (h : p.link.rx = .hunt) : p.byteIn 0x9E = p.assembling .header [] := by
  simp [Part.byteIn, Part.modLink, h, Link.hunted, Part.assembling]

theorem Part.byteIn_header (p : Part) (buf : List Byte) (b : Byte) :
    (p.assembling .header buf).byteIn b = (p.assembling .header buf).modLink fun l => l.headerByte b := rfl

theorem Part.byteIn_body (p : Part) (buf : List Byte) (b : Byte) :
    (p.assembling .body buf).byteIn b =
      p.assembling (if (buf ++ [b]).length = 4 + u16At (buf ++ [b]) 0 then .check else .body) (buf ++ [b]) := rfl

theorem Part.byteIn_check (p : Part) (buf : List Byte) (b : Byte) :
    (p.assembling .check buf).byteIn b = (p.assembling .check buf).checkByte b := rfl

theorem Link.headerByte_short {l : Link} {b : Byte}
    (h2 : ¬ ((l.rxBuf ++ [b]).length = 2 ∧ 1200 < u16At (l.rxBuf ++ [b]) 0)) (h4 : (l.rxBuf ++ [b]).length ≠ 4) :
    l.headerByte b = { l with rxBuf := l.rxBuf ++ [b] } := by
  simp only [Link.headerByte, if_neg h2, if_neg h4]

/-- The four header bytes of a length up to 1,200. -/
theorem State.receive_header {s : State} {p : Part} (hp : p.powered = true) {low high : Byte}
    (hn : low.toNat + 256 * high.toNat ≤ 1200) (ty tag : Byte) (rest : List Byte) :
    (s.withPart (p.assembling .header [])).receive (low :: high :: ty :: tag :: rest) =
      (s.withPart (p.assembling (if low.toNat + 256 * high.toNat = 0 then .check else .body) [low, high, ty, tag])).receive rest := by
  have h1 : (p.assembling .header []).byteIn low = p.assembling .header [low] := rfl
  have h2 : (p.assembling .header [low]).byteIn high = p.assembling .header [low, high] := by
    have : ¬ 1200 < low.toNat + 256 * high.toNat := by omega
    have e := Link.headerByte_short (l := (p.assembling .header [low]).link) (b := high) (fun h => this h.2) nofun
    rw [Part.byteIn_header, Part.modLink, e]
    rfl
  have h3 : (p.assembling .header [low, high]).byteIn ty = p.assembling .header [low, high, ty] := rfl
  have h4 : (p.assembling .header [low, high, ty]).byteIn tag =
      p.assembling (if low.toNat + 256 * high.toNat = 0 then .check else .body) [low, high, ty, tag] := rfl
  rw [State.receive_assembling hp, h1, State.receive_assembling hp, h2, State.receive_assembling hp, h3, State.receive_assembling hp, h4]

/-- The payload, by induction on what is still to come. -/
theorem State.receive_body {s : State} {p : Part} (hp : p.powered = true) {todo : List Byte} (ht : todo ≠ []) (rest : List Byte)
    {buf : List Byte} (hb : 2 ≤ buf.length) (hn : buf.length + todo.length = 4 + u16At buf 0) :
    (s.withPart (p.assembling .body buf)).receive (todo ++ rest) = (s.withPart (p.assembling .check (buf ++ todo))).receive rest := by
  induction todo generalizing buf with
  | nil => exact absurd rfl ht
  | cons b todo ih =>
    have hu : u16At (buf ++ [b]) 0 = u16At buf 0 := u16At_append_left (by omega)
    rw [List.cons_append, State.receive_assembling hp, Part.byteIn_body, hu, List.length_append]
    simp only [List.length_cons] at hn
    cases todo with
    | nil => rw [if_pos (by simpa using hn)]; rfl
    | cons c todo =>
      rw [if_neg (by simp at hn ⊢; omega), ih (List.cons_ne_nil _ _) (by simp; omega) (by rw [hu]; simp at hn ⊢; omega)]
      simp

/-- The two check bytes of what is in the buffer. -/
theorem State.receive_check {s : State} {p : Part} (hp : p.powered = true) {buf : List Byte} {high low : Byte}
    (hb : 4 ≤ buf.length) (hn : buf.length = 4 + u16At buf 0) (hc : (crc16 buf).toNat = 256 * high.toNat + low.toNat) :
    (s.withPart (p.assembling .check buf)).receive [high, low] =
      .next (s.withPart (((p.assembling .check buf).modLink Link.hunt).goodFrame
        { ty := buf.getD 2 0, tag := buf.getD 3 0, payload := buf.drop 4 })) := by
  have u1 : u16At (buf ++ [high]) 0 = u16At buf 0 := u16At_append_left (by omega)
  have u2 : u16At (buf ++ [high, low]) 0 = u16At buf 0 := u16At_append_left (by omega)
  have h1 : (p.assembling .check buf).byteIn high = p.assembling .check (buf ++ [high]) := by
    have : ¬ (buf ++ [high]).length = 6 + u16At (buf ++ [high]) 0 := by rw [u1]; simp; omega
    rw [Part.byteIn_check, Part.checkByte]
    exact if_neg this
  have hf : checkedFrame (buf ++ [high, low]) = some { ty := buf.getD 2 0, tag := buf.getD 3 0, payload := buf.drop 4 } := by
    have hl : byteAt (buf ++ [high, low]) (4 + u16At buf 0) = high.toNat := by
      rw [byteAt_append_right (by omega), hn]; simp [byteAt]
    have hl' : byteAt (buf ++ [high, low]) (5 + u16At buf 0) = low.toNat := by
      rw [byteAt_append_right (by omega), show 5 + u16At buf 0 - buf.length = 1 by omega]; simp [byteAt]
    have ht : (buf ++ [high, low]).take (4 + u16At buf 0) = buf := by rw [← hn]; exact List.take_left
    have hty : (buf ++ [high, low]).getD 2 0 = buf.getD 2 0 := by simp [List.getElem?_append, show 2 < buf.length by omega]
    have htag : (buf ++ [high, low]).getD 3 0 = buf.getD 3 0 := by simp [List.getElem?_append, show 3 < buf.length by omega]
    simp only [checkedFrame, u2, ht, hl, hl', if_pos hc, hty, htag]
  have h2 : (p.assembling .check (buf ++ [high])).byteIn low =
      ((p.assembling .check buf).modLink Link.hunt).goodFrame { ty := buf.getD 2 0, tag := buf.getD 3 0, payload := buf.drop 4 } := by
    have hlen : ((p.assembling .check (buf ++ [high])).link.rxBuf ++ [low]).length =
        6 + u16At ((p.assembling .check (buf ++ [high])).link.rxBuf ++ [low]) 0 := by
      show (buf ++ [high] ++ [low]).length = 6 + u16At (buf ++ [high] ++ [low]) 0
      rw [List.append_assoc]
      show (buf ++ [high, low]).length = 6 + u16At (buf ++ [high, low]) 0
      rw [u2]; simp; omega
    rw [Part.byteIn_check, Part.checkByte]
    dsimp only
    rw [if_pos hlen]
    have e : (p.assembling .check (buf ++ [high])).link.rxBuf ++ [low] = buf ++ [high, low] := by
      show buf ++ [high] ++ [low] = _
      simp
    rw [e, hf]
    rfl
  rw [State.receive_assembling hp, h1, State.receive_assembling hp, h2]
  rfl

theorem Part.goodFrame_congr {p q : Part} (h : p.frameHeard = q.frameHeard) (fr : Frame) : p.goodFrame fr = q.goodFrame fr := by
  rw [Part.goodFrame, Part.goodFrame, h]

/-- The two bytes of a number below 65,536. -/
theorem le16_bytes {n : Nat} (h : n < 65536) : (BitVec.ofNat 8 n).toNat + 256 * (BitVec.ofNat 8 (n / 256)).toNat = n := by
  simp only [BitVec.toNat_ofNat]
  omega

/-- Settles O8: header, payload and check, each part of the frame in turn. -/
theorem bytesOfAFrameAreTheFrame : Obligations.BytesOfAFrameAreTheFrame := by
  unfold Obligations.BytesOfAFrameAreTheFrame
  intro s fr hp hr hl
  obtain ⟨ty, tag, payload⟩ := fr
  dsimp only at hl
  have hn := le16_bytes (show payload.length < 65536 by omega)
  have start : s.part.byteIn 0x9E = s.part.assembling .header [] := Part.byteIn_start hr
  have e : Frame.encode { ty := ty, tag := tag, payload := payload } =
      0x9E :: BitVec.ofNat 8 payload.length :: BitVec.ofNat 8 (payload.length / 256) :: ty :: tag :: (payload ++
        [BitVec.ofNat 8 ((crc16 ([BitVec.ofNat 8 payload.length, BitVec.ofNat 8 (payload.length / 256), ty, tag] ++ payload)).toNat / 256),
         BitVec.ofNat 8 (crc16 ([BitVec.ofNat 8 payload.length, BitVec.ofNat 8 (payload.length / 256), ty, tag] ++ payload)).toNat]) := rfl
  generalize hhead : [BitVec.ofNat 8 payload.length, BitVec.ofNat 8 (payload.length / 256), ty, tag] = head at e
  have hu : u16At head 0 = payload.length := by rw [← hhead]; exact hn
  have hh : head.length = 4 := by rw [← hhead]; rfl
  have hu' : u16At (head ++ payload) 0 = payload.length := by rw [u16At_append_left (by omega), hu]
  have body : ∀ rest,
      (s.withPart (s.part.assembling (if payload.length = 0 then .check else .body) head)).receive (payload ++ rest) =
      (s.withPart (s.part.assembling .check (head ++ payload))).receive rest := by
    intro rest
    by_cases h : payload = []
    · subst h; simp
    · rw [if_neg (by simpa using h)]
      exact State.receive_body hp h rest (by omega) (by omega)
  have hc := le16_bytes (crc16 (head ++ payload)).isLt
  rw [e, show s = s.withPart s.part from rfl, State.receive_cons hp, start, State.receive_header hp (by omega), hn, hhead, body,
    State.receive_check hp (by simp; omega) (by rw [hu']; simp; omega) (by omega)]
  subst hhead
  exact congrArg (fun q => Host.Outcome.next (s.withPart q)) (Part.goodFrame_congr rfl _)

end Sys2Proof.Machine
end

section
/-! PROOFS. What the receiver abandons and examines again, and what becomes of a good frame. -/

namespace Sys2Proof.Machine

open Sys2Proof

/-! ## Back to HUNT -/

theorem Link.hunted_eq (l : Link) (b : Byte) :
    l.hunted b = { l with rx := if b = 0x9E then .header else l.rx, rxBuf := if b = 0x9E then [] else l.rxBuf } := by
  unfold Link.hunted
  split <;> rfl

/-- The two bytes of a length that is too long, each taken for the start of a frame, the low one first. -/
theorem Link.reexamine_eq (l : Link) (low high : Byte) :
    l.reexamine low high =
      { l with rx := if low = 0x9E ∨ high = 0x9E then .header else .hunt, rxBuf := if low = 0x9E then [high] else [] } := by
  unfold Link.reexamine
  rw [Link.hunted_eq]
  by_cases hl : low = 0x9E
  · simp [hl]
  · simp only [hl, if_false, false_or, Link.hunt]
    split <;> rfl

theorem Part.byteIn_hunt {p : Part} (h : p.link.rx = .hunt) (b : Byte) :
    p.byteIn b = { p with link := { p.link with
      lastByteAt := p.clock, rx := if b = 0x9E then .header else .hunt, rxBuf := if b = 0x9E then [] else p.link.rxBuf } } := by
  have e : p.byteIn b = (p.modLink fun l => { l with lastByteAt := p.clock }).modLink fun l => l.hunted b := by
    simp only [Part.byteIn, Part.modLink, h]
  rw [e, Part.modLink, Link.hunted_eq]
  simp only [Part.modLink, h]

/-- A second length byte that makes the length too long. -/
theorem Part.byteIn_long {p : Part} {low high : Byte} (h : p.link.rx = .header) (hb : p.link.rxBuf = [low])
    (hl : 1200 < low.toNat + 256 * high.toNat) : p.byteIn high = p.longHeader low high := by
  have e : p.byteIn high = (p.modLink fun l => { l with lastByteAt := p.clock }).modLink fun l => l.headerByte high := by
    simp only [Part.byteIn, Part.modLink, h]
  have hu : 1200 < u16At [low, high] 0 := hl
  rw [e, Part.longHeader, if_pos hl]
  simp only [Part.modLink, Link.headerByte, hb, List.cons_append, List.nil_append, List.length_cons, List.length_nil, hu, and_self,
    if_true, Link.reexamine_eq]
  rfl

/-- The two length bytes of an abandoned frame act as if each had just arrived. -/
theorem State.receive_long {s : State} (hp : s.part.powered = true) (low high : Byte)
    (hl : 1200 < low.toNat + 256 * high.toNat) :
    (s.withPart (s.part.modLink Link.hunt)).receive [low, high] = .next (s.withPart (s.part.longHeader low high)) := by
  have hp' : (s.part.modLink Link.hunt).powered = true := hp
  have h1 := Part.byteIn_hunt (p := s.part.modLink Link.hunt) rfl low
  rw [State.receive_cons hp', h1]
  rw [State.receive_cons (by exact hp)]
  by_cases hb : low = 0x9E
  · have h2 : Part.byteIn high (s.part.assembling .header []) = s.part.longHeader low high := by
      rw [Part.longHeader, if_pos hl]
      simp only [Link.reexamine_eq, hb, true_or, if_true]
      rfl
    rw [← h2]
    simp only [hb, if_true]
    rfl
  · simp only [hb, if_false]
    rw [Part.byteIn_hunt rfl]
    simp only [Part.longHeader, if_pos hl, Link.reexamine_eq, hb, false_or, if_false]
    by_cases hh : high = 0x9E <;> simp only [hh, if_true, if_false] <;> rfl

/-! ## A good frame -/

theorem Part.goodFrame_notRequest {p : Part} {fr : Frame} (h : 0x70 ≤ fr.ty.toNat) : p.goodFrame fr = p.frameHeard := if_pos h

/-- A request that finds the frame buffer occupied or a reset pending only restarts the silence timer. -/
theorem Part.goodFrame_dropped {p : Part} {fr : Frame} (ht : fr.ty.toNat < 0x70)
    (h : p.link.resetPending = true ∨ p.link.frameBuf ≠ none) : p.goodFrame fr = p.frameHeard := by
  have h' : (p.frameHeard.link.resetPending || p.frameHeard.link.frameBuf.isSome) = true := by
    simpa [Option.isSome_iff_ne_none, Part.frameHeard, Part.modLink, Link.hunt] using h
  rw [Part.goodFrame, if_neg (by omega), Part.takeRequest, if_pos h']

/-- A request that finds the reply slot occupied waits in the frame buffer. -/
theorem Part.goodFrame_waits {p : Part} {fr : Frame} (ht : fr.ty.toNat < 0x70) (h1 : p.link.resetPending = false)
    (h2 : p.link.frameBuf = none) (h3 : p.link.reply ≠ none) :
    p.goodFrame fr = p.frameHeard.modLink fun l => { l with frameBuf := some fr } := by
  have h12 : ¬ (p.frameHeard.link.resetPending || p.frameHeard.link.frameBuf.isSome) = true := by
    simp [Part.frameHeard, Part.modLink, Link.hunt, h1, h2]
  have h3' : p.frameHeard.link.reply.isSome = true := Option.isSome_iff_ne_none.mpr h3
  rw [Part.goodFrame, if_neg (by omega), Part.takeRequest, if_neg h12, if_pos h3']

/-- A command that is a request's frame is that frame, received whole. -/
theorem exec_request {c : Instr} {fr : Frame} (h : requestFrame c = some fr) (s : State) :
    exec c s = s.request fr.ty fr.tag fr.payload := by
  cases c <;> cases h <;> rfl

theorem exec_goodFrame {c : Instr} {fr : Frame} (h : requestFrame c = some fr) {s : State} (hp : s.part.powered = true) :
    exec c s = .next { s with part := s.part.goodFrame fr } := by
  rw [exec_request h]
  exact State.event_powered hp _

/-- Settles O9: each byte, gap and error that ends a frame, and each frame that is not handled at once. -/
theorem receiverTakesAndDropsFrames : Obligations.ReceiverTakesAndDropsFrames := by
  unfold Obligations.ReceiverTakesAndDropsFrames
  refine ⟨fun s hp => ⟨fun hr b => ?byte, ?check, ?framing, fun hr => ?gap, fun hr => ?noGap, fun low high hl => ⟨?again, ?_⟩,
    fun low high hr hb hl => ?second⟩, fun s ty tag payload hp => ⟨fun ht => ?other, fun ht h => ⟨?dropped, ?unknown⟩,
    fun h c fr hc ht => ?occupied, fun h1 h2 h3 c fr hc ht => ?waits⟩⟩
  case byte => rw [← Part.byteIn_hunt hr]; exact State.event_powered hp _
  case check => exact State.event_powered hp (fun p => p.modLink Link.hunt)
  case framing => exact State.event_powered hp (fun p => p.modLink Link.hunt)
  case gap =>
    have e : s.part.gapOver = (s.part.advanceTo (s.part.link.lastByteAt + 5000)).modLink Link.hunt := if_neg hr
    have l : (s.part.advanceTo (s.part.link.lastByteAt + 5000)).link = s.part.link := by simp
    have k := State.event_powered hp Part.gapOver
    rw [e, Part.modLink, l] at k
    exact k
  case noGap =>
    have e : s.part.gapOver = s.part := if_pos hr
    have k := State.event_powered hp Part.gapOver
    rw [e] at k
    exact k
  case again =>
    have k := State.receive_long hp low high hl
    exact (State.event_powered hp _).trans k.symm
  · refine ⟨_, State.event_powered hp _, ?_⟩
    simp only [Part.longHeader, if_pos hl, Part.modLink, Link.reexamine_eq, and_self]
  case second =>
    have k := State.event_powered hp (fun p => p.byteIn high)
    rw [Part.byteIn_long hr hb hl] at k
    exact k.trans (State.event_powered hp _).symm
  case other =>
    have k := State.event_powered hp (fun p => p.goodFrame { ty := ty, tag := tag, payload := payload })
    rw [Part.goodFrame_notRequest ht] at k
    exact k
  case dropped =>
    have k := State.event_powered hp (fun p => p.droppedRequest { ty := ty, tag := tag, payload := payload })
    rw [Part.droppedRequest, if_pos ⟨ht, by simpa [Option.isSome_iff_ne_none] using h⟩] at k
    exact k
  case unknown =>
    have k := exec_goodFrame (c := .unknownRequest ty tag payload) rfl hp
    rw [Part.goodFrame_dropped ht h] at k
    exact k
  case occupied =>
    have k := exec_goodFrame hc hp
    rw [Part.goodFrame_dropped ht h] at k
    exact k
  case waits =>
    have k := exec_goodFrame hc hp
    rw [Part.goodFrame_waits ht h1 h2 h3] at k
    exact k

end Sys2Proof.Machine
end

section
/-! PROOFS. Requests at a free link, and the transmitter. -/

namespace Sys2Proof.Machine

open Sys2Proof

/-! ## An answer accepts, or refuses and leaves the part -/

/-- An answer that is one of the two forms: a refusal, which leaves the part as it was, or an acceptance. -/
def Part.Decides (p : Part) (a : Answer) : Prop :=
  (∃ c detail, c ≠ .ok ∧ a = p.refuse c detail) ∨ ∃ (q : Part) (data : List Byte), a = q.accept data

theorem Part.refuse_decides (p : Part) {c : ResultCode} (detail : List Byte) (h : c ≠ .ok := by decide) : p.Decides (p.refuse c detail) :=
  .inl ⟨c, detail, h, rfl⟩

theorem Part.accept_decides (p q : Part) (data : List Byte) : p.Decides (q.accept data) := .inr ⟨q, data, rfl⟩

theorem Part.ofLength_decides {n : Nat} {payload : List Byte} {h : Part → Answer} {p : Part} (k : p.Decides (h p)) :
    p.Decides (Part.ofLength n payload h p) := by
  unfold Part.ofLength
  split
  · exact k
  · exact p.refuse_decides _

theorem Part.atFixture_decides {payload : List Byte} {i : Nat} {h : FixtureIx → Part → Answer} {p : Part}
    (k : ∀ f, p.Decides (h f p)) : p.Decides (Part.atFixture payload i h p) := by
  unfold Part.atFixture
  split
  · exact k _
  · exact p.refuse_decides _

theorem Part.atChannel_decides {payload : List Byte} {i : Nat} {h : ChannelIx → Part → Answer} {p : Part}
    (k : ∀ c, p.Decides (h c p)) : p.Decides (Part.atChannel payload i h p) := by
  unfold Part.atChannel
  split
  · exact k _
  · exact p.refuse_decides _

theorem Part.ite_decides {c : Prop} [Decidable c] {p : Part} {a b : Answer} (ha : p.Decides a) (hb : p.Decides b) :
    p.Decides (if c then a else b) := by
  split <;> assumption

theorem Part.openRun_decides (p : Part) (payload : List Byte) : p.Decides (p.openRun payload) := by
  refine Part.ofLength_decides (Part.atFixture_decides fun f => ?_)
  split
  · exact p.refuse_decides _
  · split
    · rename_i c hc
      refine p.refuse_decides _ (fun e => ?_)
      subst e
      simp only [Part.openRefusal] at hc
      split_ifs at hc <;> cases hc
    · exact p.accept_decides _ _

theorem Part.queueSteps_decides (p : Part) (payload : List Byte) : p.Decides (p.queueSteps payload) := by
  refine Part.ite_decides (p.refuse_decides _) (Part.atFixture_decides fun f =>
    Part.ite_decides (p.refuse_decides _) (Part.ite_decides (p.refuse_decides _) ?_))
  unfold Part.queueParsed
  split
  · exact p.refuse_decides _
  · exact Part.ite_decides (p.refuse_decides _) (p.accept_decides _ _)

theorem Part.markBankReady_decides (p : Part) (payload : List Byte) : p.Decides (p.markBankReady payload) := by
  refine Part.ofLength_decides (Part.atChannel_decides fun c => ?_)
  split
  · exact p.refuse_decides _
  · exact p.refuse_decides _
  · exact Part.ite_decides (p.refuse_decides _) (Part.ite_decides (p.refuse_decides _) (p.accept_decides _ _))

theorem Part.writePattern_decides (p : Part) (payload : List Byte) : p.Decides (p.writePattern payload) := by
  refine Part.ite_decides (p.refuse_decides _) (Part.ite_decides (p.refuse_decides _) ?_)
  split
  · exact p.refuse_decides _
  · split
    · exact p.refuse_decides _
    · exact p.accept_decides _ _

theorem Part.defineProbe_decides (p : Part) (payload : List Byte) : p.Decides (p.defineProbe payload) := by
  refine Part.ofLength_decides ?_
  split
  · exact p.refuse_decides _
  · refine Part.ite_decides (p.refuse_decides _) (Part.atFixture_decides fun f => ?_)
    split
    · exact p.refuse_decides _
    · exact Part.ite_decides (p.refuse_decides _) (p.accept_decides _ _)

theorem Part.reclaimMatrix_decides (p : Part) (payload : List Byte) : p.Decides (p.reclaimMatrix payload) := by
  refine Part.ofLength_decides ?_
  split
  · exact p.refuse_decides _
  · exact p.accept_decides _ _
  · exact p.accept_decides _ _

/-- Every block decides every request that comes to it. -/
theorem Part.dispatch_decides (p : Part) (fr : Frame) : p.Decides (p.dispatch fr) := by
  have no : ∀ {c : ResultCode} (detail : List Byte) (_ : c ≠ .ok := by decide), p.Decides (p.refuse c detail) :=
    fun detail h => p.refuse_decides detail h
  have yes : ∀ (q : Part) (data : List Byte), p.Decides (q.accept data) := p.accept_decides
  unfold Part.dispatch
  split
  case h_1 => exact Part.ofLength_decides (yes _ _)
  case h_2 => exact Part.ofLength_decides (yes _ _)
  case h_3 => exact Part.ofLength_decides (Part.ite_decides (no _) (yes _ _))
  case h_4 => exact Part.ofLength_decides (yes _ _)
  case h_5 => exact p.openRun_decides _
  case h_6 => exact Part.ofLength_decides (Part.atFixture_decides fun _ => Part.ite_decides (yes _ _) (no _))
  case h_7 =>
    exact Part.ofLength_decides (Part.atFixture_decides fun _ =>
      Part.ite_decides (yes _ _) (Part.ite_decides (yes _ _) (no _)))
  case h_8 => exact Part.ofLength_decides (Part.atFixture_decides fun _ => Part.ite_decides (yes _ _) (no _))
  case h_9 => exact Part.ofLength_decides (Part.atFixture_decides fun _ => yes _ _)
  case h_10 => exact p.queueSteps_decides _
  case h_11 =>
    exact Part.ofLength_decides (Part.atFixture_decides fun _ =>
      Part.ite_decides (no _) (Part.ite_decides (no _) (yes _ _)))
  case h_12 =>
    exact Part.ofLength_decides (Part.atFixture_decides fun _ =>
      Part.ite_decides (Part.ite_decides (no _) (yes _ _)) (yes _ _))
  case h_13 =>
    refine Part.ofLength_decides (Part.atChannel_decides fun _ => Part.atFixture_decides fun _ => ?_)
    split
    · exact no _
    · exact Part.ite_decides (yes _ _) (no _)
  case h_14 => exact Part.ofLength_decides (Part.atChannel_decides fun _ => yes _ _)
  case h_15 => exact Part.ofLength_decides (Part.atChannel_decides fun _ => Part.ite_decides (yes _ _) (no _))
  case h_16 => exact p.markBankReady_decides _
  case h_17 => exact p.writePattern_decides _
  case h_18 => exact Part.ofLength_decides (Part.ite_decides (no _) (yes _ _))
  case h_19 =>
    refine Part.ofLength_decides (Part.atFixture_decides fun _ => ?_)
    split
    · exact no _
    · exact yes _ _
  case h_20 =>
    refine Part.ofLength_decides (Part.atFixture_decides fun _ => ?_)
    split
    · exact no _
    · exact yes _ _
  case h_21 => exact p.defineProbe_decides _
  case h_22 =>
    refine Part.ofLength_decides ?_
    split
    · exact no _
    · exact yes _ _
  case h_23 => exact Part.ofLength_decides (Part.ite_decides (no _) (Part.ite_decides (no _) (yes _ _)))
  case h_24 => exact p.reclaimMatrix_decides _
  case h_25 => exact Part.ofLength_decides (Part.ite_decides (yes _ _) (no _))
  case h_26 =>
    refine Part.ofLength_decides ?_
    split
    · exact no _
    · exact Part.ite_decides (yes _ _) (no _)
  case h_27 =>
    refine Part.ofLength_decides ?_
    split
    · exact no _
    · exact yes _ _
  case h_28 => exact no _

/-! ## Requests at a free link -/

theorem ResultCode.code_le (c : ResultCode) : c.code ≤ 0x0B := by cases c <;> decide

theorem Part.asked_reply (p : Part) (a b : Byte) : (p.asked a b).link.reply ≠ none := nofun

/-- A request at a free link, by the answer of the block that owns it. -/
theorem exec_answer {c : Instr} {fr : Frame} {s : State} (hc : requestFrame c = some fr) (ht : fr.ty.toNat < 0x70) (hl : s.Listening) :
    exec c s = .next { s with part :=
      ((s.part.asked fr.ty fr.tag).dispatch fr).1.replied fr.ty fr.tag ((s.part.asked fr.ty fr.tag).dispatch fr).2 } := by
  obtain ⟨htx, _, hbuf, _, _⟩ := (Part.dispatch_serves (s.part.asked fr.ty fr.tag) fr).held (Part.asked_reply _ _ _)
  rw [exec_request hc]
  exact request_next hl ht rfl (htx.trans hl.free) (hbuf.trans hl.noRequest)

theorem exec_refused {c : Instr} {fr : Frame} {s : State} (hc : requestFrame c = some fr) (ht : fr.ty.toNat < 0x70) (hl : s.Listening)
    {code : ResultCode} {detail : List Byte}
    (hd : (s.part.asked fr.ty fr.tag).dispatch fr = (s.part.asked fr.ty fr.tag).refuse code detail) :
    exec c s = .next { s with part := s.part.answered (fr.ty + 0x80) fr.tag (le8 code.code ++ detail) } := by
  rw [exec_request hc]
  exact request_refused hl ht hd

/-- A type outside the index. -/
theorem Part.dispatch_unknown {p : Part} {fr : Frame} (h : fr.ty.toNat ∉ knownRequestTypes) :
    p.dispatch fr = p.refuse .unknownRequest := by
  unfold Part.dispatch
  split
  case h_28 => rfl
  all_goals (rename_i e; exact absurd (e ▸ by decide) h)

/-- The lengths of section 11.7: the types whose payload has one length. -/
def fixedLengths : List (Nat × Nat) :=
  [(0x01, 0), (0x02, 0), (0x03, 1), (0x04, 0), (0x10, 33), (0x11, 1), (0x12, 1), (0x13, 1), (0x14, 1), (0x16, 2), (0x20, 1),
    (0x30, 17), (0x31, 1), (0x32, 1), (0x33, 2), (0x35, 3), (0x40, 12), (0x41, 2), (0x50, 16), (0x51, 1), (0x52, 2), (0x53, 0),
    (0x54, 2), (0x60, 2), (0x61, 1)]

/-- Each block with a fixed length looks at the length first. -/
theorem Part.dispatch_fixed {p : Part} {fr : Frame} {n : Nat} (h : (fr.ty.toNat, n) ∈ fixedLengths) :
    ∃ g, p.dispatch fr = Part.ofLength n fr.payload g p := by
  simp only [fixedLengths, List.mem_cons, Prod.mk.injEq, List.not_mem_nil, or_false] at h
  unfold Part.dispatch
  rcases h with ⟨e, rfl⟩ | ⟨e, rfl⟩ | ⟨e, rfl⟩ | ⟨e, rfl⟩ | ⟨e, rfl⟩ | ⟨e, rfl⟩ | ⟨e, rfl⟩ | ⟨e, rfl⟩ | ⟨e, rfl⟩ | ⟨e, rfl⟩ |
    ⟨e, rfl⟩ | ⟨e, rfl⟩ | ⟨e, rfl⟩ | ⟨e, rfl⟩ | ⟨e, rfl⟩ | ⟨e, rfl⟩ | ⟨e, rfl⟩ | ⟨e, rfl⟩ | ⟨e, rfl⟩ | ⟨e, rfl⟩ | ⟨e, rfl⟩ |
    ⟨e, rfl⟩ | ⟨e, rfl⟩ | ⟨e, rfl⟩ | ⟨e, rfl⟩ <;> rw [e] <;> exact ⟨_, rfl⟩

theorem Part.dispatch_badLength {p : Part} {fr : Frame}
    (h : (∃ n, (fr.ty.toNat, n) ∈ fixedLengths ∧ fr.payload.length ≠ n) ∨ (fr.ty = 0x15 ∧ fr.payload.length < 2) ∨
      (fr.ty = 0x34 ∧ fr.payload.length < 3)) : p.dispatch fr = p.refuse .badLength := by
  rcases h with ⟨n, hn, hne⟩ | ⟨e, hlt⟩ | ⟨e, hlt⟩
  · obtain ⟨g, hg⟩ := Part.dispatch_fixed (p := p) hn
    rw [hg]
    exact Part.ofLength_of_ne hne g
  · rw [Part.dispatch, e]
    exact if_pos hlt
  · rw [Part.dispatch, e]
    exact if_pos (.inl hlt)

/-- Settles O10: the block answers with a code, and the link held while it did takes the reply up. -/
theorem everyRequestIsAnswered : Obligations.EveryRequestIsAnswered := by
  unfold Obligations.EveryRequestIsAnswered
  intro c fr s hc ht hl
  refine ⟨?_, fun hk => ?_, fun hb => exec_refused hc ht hl (Part.dispatch_badLength hb)⟩
  · obtain ⟨_, _, hbuf, hrx, hfrom⟩ := (Part.dispatch_serves (s.part.asked fr.ty fr.tag) fr).held (Part.asked_reply _ _ _)
    have code : ∃ code data, ((s.part.asked fr.ty fr.tag).dispatch fr).2 = BitVec.ofNat 8 code :: data ∧ code ≤ 0x0B := by
      rcases Part.dispatch_decides (s.part.asked fr.ty fr.tag) fr with ⟨c, detail, _, e⟩ | ⟨q, data, e⟩
      · exact ⟨c.code, detail, congrArg Prod.snd e, c.code_le⟩
      · exact ⟨0, data, congrArg Prod.snd e, by decide⟩
    obtain ⟨code, data, hd, hle⟩ := code
    refine ⟨_, code, data, exec_answer hc ht hl, ?_, hle, rfl, hbuf.trans hl.noRequest, hrx, hfrom⟩
    rw [hd]
    rfl
  · exact exec_refused (c := .unknownRequest fr.ty fr.tag fr.payload) rfl ht hl (Part.dispatch_unknown hk)

/-- Settles O11: an answer whose code is not 0 is a refusal. -/
theorem refusedRequestsChangeNothing : Obligations.RefusedRequestsChangeNothing := by
  unfold Obligations.RefusedRequestsChangeNothing
  intro c fr s t code data hc ht hl hs hreply hcode
  rcases Part.dispatch_decides (s.part.asked fr.ty fr.tag) fr with ⟨k, detail, _, e⟩ | ⟨q, d, e⟩
  · rw [exec_refused hc ht hl e] at hs
    cases hs
    injection hreply with hreply
    injection hreply with hreply
    injection hreply with _ _ hp
    rw [hp]
  · rw [exec_answer hc ht hl, e] at hs
    cases hs
    injection hreply with hreply
    injection hreply with hreply
    injection hreply with _ _ hp
    injection hp with hz
    exact absurd hz.symm hcode

/-! ## The transmitter -/

/-- The event of either command by which the transmitter looks for its next frame. -/
theorem exec_takeNext {c : Instr} {s : State} (hp : s.part.powered = true) (hd : s.part.link.resetDue = false)
    (hc : (c = .frameSent ∧ s.part.link.tx ≠ .free) ∨ (c = .transmitStart ∧ s.part.link.tx = .free)) :
    exec c s = .next { s with part := s.part.takeNext } := by
  rcases hc with ⟨rfl, h⟩ | ⟨rfl, h⟩
  · have e : s.part.frameOut = s.part.takeNext := by
      unfold Part.frameOut
      split
      · exact absurd ‹_› h
      · rw [hd]; rfl
    rw [← e]
    exact State.event_powered hp _
  · have e : s.part.pump = s.part.takeNext := if_pos h
    rw [← e]
    exact State.event_powered hp _

theorem Part.takeNext_reply {p : Part} {fr : Frame} (h : p.link.reply = some fr) :
    p.takeNext = (p.modLink fun l => { l with tx := .sending (.reply fr), reply := none }).handleWaiting := by
  simp only [Part.takeNext, h]

/-- A request that waits in the frame buffer is handled: its reply waits behind the frame that goes out. -/
theorem Part.handleWaiting_reply {p : Part} {rq : Frame} (h : p.link.frameBuf = some rq) (hr : p.link.resetPending = false) :
    ∃ payload, p.handleWaiting.link.tx = p.link.tx ∧ p.handleWaiting.link.frameBuf = none ∧
      p.handleWaiting.link.reply = some { ty := rq.ty + 0x80, tag := rq.tag, payload := payload } := by
  have e : p.handleWaiting = (p.modLink fun l => { l with frameBuf := none }).handle rq := by
    simp only [Part.handleWaiting, h, hr]
    rfl
  obtain ⟨htx, _, hbuf, _⟩ := (Part.dispatch_serves (p.modLink fun l =>
    { l with frameBuf := none, reply := some (rq.replyWith []) }) rq).held nofun
  rw [e]
  exact ⟨_, htx, hbuf, rfl⟩

/-- Settles O12: the reply first, then the oldest notice. -/
theorem transmitterTakesReplyThenNotice : Obligations.TransmitterTakesReplyThenNotice := by
  unfold Obligations.TransmitterTakesReplyThenNotice
  intro c s hp hd hc
  rw [exec_takeNext hp hd hc]
  refine ⟨fun fr hr hb => ?reply, fun fr rq hr hb hn => ?waiting, fun n rest hr hn => ?notice, fun hr hn => ?idle⟩
  case reply =>
    rw [Part.takeNext_reply hr, Part.handleWaiting]
    simp only [Part.modLink, hb]
  case waiting =>
    obtain ⟨payload, htx, hbuf, hreply⟩ := Part.handleWaiting_reply
      (p := s.part.modLink fun l => { l with tx := .sending (.reply fr), reply := none }) hb hn
    rw [Part.takeNext_reply hr]
    exact ⟨_, payload, rfl, htx, hbuf, hreply⟩
  case notice => simp only [Part.takeNext, hr, Part.modLink, hn]
  case idle => simp only [Part.takeNext, hr, Part.modLink, hn]

end Sys2Proof.Machine
end

section
/-! PROOFS. The silence timer, three settings and the status of the part. -/

namespace Sys2Proof.Machine

open Sys2Proof

/-! ## An operation on every fixture in turn -/

/-- What an operation keeps, it keeps when done on every fixture in turn. -/
theorem Part.each_invariant {R : Part → Prop} {h : FixtureIx → Part → Part} (hR : ∀ k q, R q → R (h k q)) {p : Part} (hp : R p)
    (l : List FixtureIx) : R (p.each l h) := by
  induction l generalizing p with
  | nil => exact hp
  | cons k l ih => exact ih (hR k p hp)

theorem Part.each_fx_notMem {h : FixtureIx → Part → Part} (ho : ∀ k q g, g ≠ k → (h k q).fx g = q.fx g) {f : FixtureIx}
    {l : List FixtureIx} (hf : f ∉ l) (p : Part) : (p.each l h).fx f = p.fx f := by
  induction l generalizing p with
  | nil => rfl
  | cons k l ih =>
    obtain ⟨hk, hl⟩ := not_or.mp (fun e => hf (List.mem_cons.mpr e))
    exact (ih hl _).trans (ho k p f hk)

/-- An operation that leaves the other fixtures, done on every fixture in turn: a fixture's own turn finds it as it was at first. -/
theorem Part.each_fx_mem {R : Part → Prop} {h : FixtureIx → Part → Part} (hR : ∀ k q, R q → R (h k q))
    (ho : ∀ k q g, g ≠ k → (h k q).fx g = q.fx g) {f : FixtureIx} {l : List FixtureIx} (hl : l.Nodup) (hf : f ∈ l) {p : Part}
    (hp : R p) : ∃ q, R q ∧ q.fx f = p.fx f ∧ (p.each l h).fx f = (h f q).fx f := by
  induction l generalizing p with
  | nil => cases hf
  | cons k l ih =>
    obtain ⟨hk, hl⟩ := List.nodup_cons.mp hl
    by_cases e : f = k
    · subst e
      exact ⟨p, hp, rfl, Part.each_fx_notMem ho hk _⟩
    · have hf' : f ∈ l := (List.mem_cons.mp hf).resolve_left e
      obtain ⟨q, hq, h1, h2⟩ := ih hl hf' (hR k p hp)
      exact ⟨q, hq, h1.trans (ho k p f e), h2⟩

/-! ## Silence -/

theorem Part.Halted.clock {f : FixtureIx} {r : HaltReason} {p q : Part} (h : p.Halted f r q) : q.clock = p.clock :=
  (congrArg Part.clock h.rest :)

theorem Part.haltRequest_open {p : Part} {f : FixtureIx} (h : (p.fx f).run.isOpen = true) (r : HaltReason) :
    p.haltRequest f r = p.enterHalting f r := if_pos h

theorem Part.haltRequest_closed {p : Part} {f : FixtureIx} (h : (p.fx f).run.isOpen = false) (r : HaltReason) :
    p.haltRequest f r = p := if_neg (by simp [h])

theorem Part.haltRequest_clock (p : Part) (f : FixtureIx) (r : HaltReason) : (p.haltRequest f r).clock = p.clock := by
  cases h : (p.fx f).run.isOpen with
  | true => rw [Part.haltRequest_open h]; exact (Part.enterHalting_halted h r).clock
  | false => rw [Part.haltRequest_closed h]

theorem Verdict.incomplete_le_max (v : Verdict) : 2 ≤ (v.max .incomplete).code := by cases v <;> decide

/-- The silence timer's expiry: time moves to it, and every run is asked to halt. -/
theorem Part.silenceOver_eq {p : Part} {t : Nat} (h : p.link.silenceAt = some t) :
    p.silenceOver = ((p.advanceTo t).each allFixtures fun f q => q.haltRequest f .linkLost).modLink
      fun l => { l with silenceFrom := none } := by
  unfold Part.silenceOver
  simp only [h]
  split
  · rfl
  · rename_i hu
    have shut : ∀ f, ((p.advanceTo t).fx f).run.isOpen = false := by
      intro f
      rw [Bool.eq_false_iff]
      intro ho
      exact hu (List.any_eq_true.mpr ⟨f, mem_allFixtures f, by rw [Run.unfinished, ho]; rfl⟩)
    have same : ∀ l : List FixtureIx, (p.advanceTo t).each l (fun f q => q.haltRequest f .linkLost) = p.advanceTo t := by
      intro l
      induction l with
      | nil => rfl
      | cons f l ih =>
        show ((p.advanceTo t).haltRequest f .linkLost).each l _ = _
        rw [Part.haltRequest_closed (shut f), ih]
    rw [same]

/-- Settles O13: each run that is open enters HALTING on its turn, by what entry to HALTING does. -/
theorem silenceHaltsEveryOpenRun : Obligations.SilenceHaltsEveryOpenRun := by
  unfold Obligations.SilenceHaltsEveryOpenRun
  intro s from_ hp hf ht
  have hat : s.part.link.silenceAt = some (from_ + s.part.link.silenceTimeout * 1000000) := by simp [Link.silenceAt, hf, ht]
  have e := State.event_powered hp Part.silenceOver
  rw [Part.silenceOver_eq hat] at e
  generalize from_ + s.part.link.silenceTimeout * 1000000 = t at e ⊢
  refine ⟨_, e, rfl, rfl, ?clock, fun f => ?fixture⟩
  case clock =>
    have k : ((s.part.advanceTo t).each allFixtures fun f q => q.haltRequest f .linkLost).clock = (s.part.advanceTo t).clock :=
      Part.each_invariant (R := fun q => q.clock = (s.part.advanceTo t).clock)
        (fun f q h => (q.haltRequest_clock f _).trans h) rfl allFixtures
    dsimp only
    rw [Part.modLink_clock, k, Part.advanceTo_clock]
  case fixture =>
    obtain ⟨q, _, hq, hx⟩ := Part.each_fx_mem (R := fun _ => True) (h := fun f q => q.haltRequest f .linkLost) (fun _ _ _ => trivial)
      (fun f q g hg => q.haltRequest_others hg _) (by decide : allFixtures.Nodup) (mem_allFixtures f) (p := s.part.advanceTo t) trivial
    have hrun : (q.fx f).run = (s.part.fx f).run := by rw [hq, Part.advanceTo_fx_eq]
    have hsup : (q.fx f).supply = (s.part.fx f).supply := by rw [hq, Part.advanceTo_fx_eq]
    dsimp only
    rw [Part.modLink_fx, hx]
    refine ⟨fun ho => ?_, fun ho => ?_⟩
    · rw [← hrun] at ho
      rw [Part.haltRequest_open ho]
      have k := Part.enterHalting_halted ho .linkLost
      refine ⟨k.reason, ?_, k.notLive, k.steps.2.1, k.steps.1, k.state⟩
      rw [k.verdict, if_neg (by simp)]
      exact Verdict.incomplete_le_max _
    · rw [← hrun] at ho
      rw [Part.haltRequest_closed ho]
      exact ⟨hrun, hsup⟩

/-! ## Settings -/

theorem le16_of_bytes (low high : Byte) : le16 (low.toNat + 256 * high.toNat) = [low, high] := by
  have h : (low.toNat + 256 * high.toNat) / 256 = high.toNat := by have := low.isLt; omega
  rw [le16, h]
  congr 1
  · refine BitVec.eq_of_toNat_eq ?_
    rw [BitVec.toNat_ofNat]
    have := low.isLt
    omega
  · simp

theorem lendMsOk_iff {ms : Nat} : lendMsOk ms = true ↔ 100 ≤ ms ∧ ms ≤ 10000 := by simp [lendMsOk]

theorem consoleOfCode_none {n : Nat} (h : 1 < n) : consoleOfCode n = none := by
  rw [consoleOfCode, if_neg (by omega), if_neg (by omega)]

theorem consoleOfCode_zero_one {n : Nat} (h : n ≤ 1) : ∃ k, consoleOfCode n = some k := by
  unfold consoleOfCode
  by_cases h0 : n = 0
  · exact ⟨.a, if_pos h0⟩
  · exact ⟨.b, by rw [if_neg h0, if_pos (by omega)]⟩

theorem Part.setLendLimit_pair (p : Part) (low high : Byte) :
    p.setLendLimit [low, high] =
      if 100 ≤ low.toNat + 256 * high.toNat ∧ low.toNat + 256 * high.toNat ≤ 10000 then
        (p.modLend fun l => { l with holdLimit := low.toNat + 256 * high.toNat }, [0x00, low, high])
      else p.refuse .badField := by
  have e : p.setLendLimit [low, high] = if lendMsOk (low.toNat + 256 * high.toNat) then
      (p.modLend fun l => { l with holdLimit := low.toNat + 256 * high.toNat }).accept (le16 (low.toNat + 256 * high.toNat))
    else p.refuse .badField := rfl
  rw [e, Part.accept_eq, le16_of_bytes]
  exact if_congr lendMsOk_iff rfl rfl

theorem Part.configConsole_pair (p : Part) (k long : Byte) :
    p.configConsole [k, long] =
      match consoleOfCode k.toNat with
      | none => p.refuse .badField
      | some c =>
        if 1 ≤ long.toNat ∧ long.toNat ≤ 4 then
          (p.modCon c fun x => { x with longTime := long.toNat }).accept (le8 long.toNat)
        else p.refuse .badField := rfl

theorem Part.configConsole_accepted (p : Part) {k long : Byte} {c : ConsoleId} (hk : consoleOfCode k.toNat = some c)
    (h1 : 1 ≤ long.toNat) (h4 : long.toNat ≤ 4) :
    p.configConsole [k, long] = (p.modCon c fun x => { x with longTime := long.toNat }, [0x00, long]) := by
  rw [Part.configConsole_pair, hk]
  dsimp only
  rw [if_pos ⟨h1, h4⟩, Part.accept_eq, le8_toNat]

theorem Part.configConsole_refused (p : Part) {k long : Byte} (h : 1 < k.toNat ∨ long.toNat < 1 ∨ 4 < long.toNat) :
    p.configConsole [k, long] = p.refuse .badField := by
  rw [Part.configConsole_pair]
  by_cases hk : 1 < k.toNat
  · rw [consoleOfCode_none hk]
  · obtain ⟨c, hc⟩ := consoleOfCode_zero_one (Nat.not_lt.mp hk)
    rw [hc]
    exact if_neg (by omega)

/-- Settles O15: each block's answer for its range. -/
theorem settingsTakeTheirValues : Obligations.SettingsTakeTheirValues := by
  unfold Obligations.SettingsTakeTheirValues
  intro s tag hl
  refine ⟨fun low high => ?lend, fun k long h1 h4 => ?long, fun k long h => ?refused, ?reset⟩
  case lend =>
    have e := Part.setLendLimit_pair (s.part.asked 0x54 tag) low high
    split
    · rename_i h
      rw [if_pos h] at e
      exact request_answered hl (by decide) { s.part with lend := { s.part.lend with holdLimit := low.toNat + 256 * high.toNat } }
        e hl.free hl.noRequest hl.noReply
    · rename_i h
      rw [if_neg h] at e
      exact request_refused hl (by decide) e
  case long =>
    cases k with
    | a =>
      exact request_answered hl (by decide) { s.part with consoleA := { s.part.consoleA with longTime := long.toNat } }
        (Part.configConsole_accepted (k := 0) (c := .a) (s.part.asked 0x60 tag) rfl h1 h4) hl.free hl.noRequest hl.noReply
    | b =>
      exact request_answered hl (by decide) { s.part with consoleB := { s.part.consoleB with longTime := long.toNat } }
        (Part.configConsole_accepted (k := 1) (c := .b) (s.part.asked 0x60 tag) rfl h1 h4) hl.free hl.noRequest hl.noReply
  case refused => exact request_refused hl (by decide) (Part.configConsole_refused (s.part.asked 0x60 tag) h)
  case reset =>
    exact request_answered (payload := []) hl (by decide)
      { s.part with link := { s.part.link with resetPending := true } } rfl hl.free hl.noRequest hl.noReply

end Sys2Proof.Machine
end

section
/-! PROOFS. PART_STATUS: the bytes of its report (section 11.7). -/

namespace Sys2Proof.Machine

open Sys2Proof

@[simp] theorem RackLevel.code_lt (c : RackLevel) : c.code < 256 := by cases c <;> decide
@[simp] theorem LendSource.code_lt (c : LendSource) : c.code < 256 := by cases c <;> decide
@[simp] theorem Matrix.code_lt (m : Matrix) : m.code < 256 := by cases m <;> simp [Matrix.code]
@[simp] theorem Matrix.sourceCode_lt (m : Matrix) : m.sourceCode < 256 := by cases m <;> simp [Matrix.sourceCode]

/-- The states of the eight runs, one byte for each. -/
def Part.runStates (p : Part) : List Byte := allFixtures.flatMap fun f => le8 (p.fx f).run.state.code

@[simp] theorem Part.length_runStates (p : Part) : p.runStates.length = 8 := by simp [Part.runStates, allFixtures]

theorem Part.byteAt_runStates (p : Part) (f : FixtureIx) : byteAt p.runStates f.val = (p.fx f).run.state.code := by
  have e : p.runStates[f.val]? = some (BitVec.ofNat 8 (p.fx f).run.state.code) := by
    match f with
    | 0 | 1 | 2 | 3 | 4 | 5 | 6 | 7 => rfl
  have h : (p.fx f).run.state.code < 256 := by simp
  rw [byteAt, List.getD_eq_getElem?_getD, e]
  exact Nat.mod_eq_of_lt h

/-- The rack, the reference and the matrix, at offset 0. -/
def Part.matrixReport (p : Part) : List Byte :=
  le8 p.rack.level.code ++ (flag p.conv.refFault ++ (le16 p.conv.cref ++ (le8 p.lend.matrix.code ++
    (le8 p.lend.matrix.sourceCode ++ le16 p.lend.holdLimit))))

/-- The clock and the link, at offset 16. -/
def Part.linkReport (p : Part) : List Byte :=
  le32 p.uptime.toNat ++ (le8 p.link.silenceTimeout ++ flag p.link.noticesLost)

/-- A status in its three blocks. -/
theorem Part.statusData_eq (p : Part) : p.statusData = p.matrixReport ++ (p.runStates ++ p.linkReport) := by
  simp only [Part.statusData, Part.matrixReport, Part.runStates, Part.linkReport, List.append_assoc]

@[simp] theorem Part.length_matrixReport (p : Part) : p.matrixReport.length = 8 := by simp [Part.matrixReport]
@[simp] theorem Part.length_linkReport (p : Part) : p.linkReport.length = 6 := by simp [Part.linkReport]

theorem Part.statusData_matrix {p : Part} (hc : p.conv.cref < 65536) (hl : p.lend.holdLimit < 65536) :
    byteAt p.statusData 0 = p.rack.level.code ∧ byteAt p.statusData 1 = flagNat p.conv.refFault ∧
      u16At p.statusData 2 = p.conv.cref ∧ byteAt p.statusData 4 = p.lend.matrix.code ∧
      byteAt p.statusData 5 = p.lend.matrix.sourceCode ∧ u16At p.statusData 6 = p.lend.holdLimit := by
  simp [Part.statusData_eq, Part.matrixReport, byteAt_le8_of_lt, u16At_le16_of_lt, hc, hl]

theorem Part.statusData_runs (p : Part) (f : FixtureIx) : byteAt p.statusData (8 + f.val) = (p.fx f).run.state.code := by
  have h : f.val < p.runStates.length := f.isLt
  rw [Part.statusData_eq, byteAt_append_right (by simp), Part.length_matrixReport, Nat.add_sub_cancel_left, byteAt_append_left h,
    Part.byteAt_runStates]

theorem Part.statusData_link {p : Part} (ht : p.link.silenceTimeout < 256) :
    u32At p.statusData 16 = p.clock / 1000 % 2 ^ 32 ∧ byteAt p.statusData 20 = p.link.silenceTimeout ∧
      byteAt p.statusData 21 = flagNat p.link.noticesLost := by
  have hu : p.uptime.toNat = p.clock / 1000 % 2 ^ 32 := by rw [Part.uptime, BitVec.toNat_ofNat]
  refine ⟨?_, ?_, ?_⟩
  · rw [← hu]; simp [Part.statusData_eq, Part.linkReport]
  · simp [Part.statusData_eq, Part.linkReport, byteAt_le8_of_lt, ht]
  · simp [Part.statusData_eq, Part.linkReport]

/-- Settles O17: the bytes of the report by their offsets. -/
theorem partStatusReportsAndClearsLost : Obligations.PartStatusReportsAndClearsLost := by
  unfold Obligations.PartStatusReportsAndClearsLost
  intro s tag hl hcref hlimit htimeout
  obtain ⟨level, fault, cref, matrix, source, limit⟩ := Part.statusData_matrix hcref hlimit
  obtain ⟨uptime, timeout, lost⟩ := Part.statusData_link htimeout
  refine ⟨s.part.statusData, ?reply, by simp [Part.statusData_eq], level, fault, cref, matrix, fun h => ?_, fun _ _ h => ?_,
    fun _ _ _ h => ?_, limit, s.part.statusData_runs, uptime, timeout, lost⟩
  case reply =>
    exact request_answered (payload := []) hl (by decide) { s.part with link := { s.part.link with noticesLost := false } }
      rfl hl.free hl.noRequest hl.noReply
  all_goals rw [source, h]; rfl

end Sys2Proof.Machine
end

section
/-! PROOFS. The evaluator (chapter 8): rounding, ANALOG values, TIMING and FRAME_FIELD values, and the verdict of a measurement. -/

namespace Sys2Proof.Machine

open Sys2Proof

/-! ## Rounding (R145) -/

theorem halfUp_le (a b : Nat) : 2 * b * halfUp a b ≤ 2 * a + b := Nat.mul_div_le _ _

theorem lt_halfUp_succ (a : Nat) {b : Nat} (h : 0 < b) : 2 * a + b < 2 * b * (halfUp a b + 1) := by
  have := Nat.lt_mul_div_succ (2 * a + b) (show 0 < 2 * b by omega)
  exact this

theorem halfUp_mono {a a' : Nat} (h : a ≤ a') (b : Nat) : halfUp a b ≤ halfUp a' b := Nat.div_le_div_right (by omega)

/-- A quotient that is a whole number or less than it stays so when rounded. -/
theorem halfUp_le_of_le {a b k : Nat} (hb : 0 < b) (h : a ≤ k * b) : halfUp a b ≤ k := by
  have e : 2 * b * halfUp a b < 2 * b * (k + 1) :=
    calc 2 * b * halfUp a b ≤ 2 * a + b := halfUp_le a b
      _ < 2 * (k * b) + 2 * b := by omega
      _ = 2 * b * (k + 1) := by ring
  exact Nat.lt_succ_iff.mp (Nat.lt_of_mul_lt_mul_left e)

theorem halfUp_mul_self {b : Nat} (hb : 0 < b) (a : Nat) : halfUp (a * b) b = a := by
  refine Nat.le_antisymm (halfUp_le_of_le hb le_rfl) ?_
  have e : 2 * b * a < 2 * b * (halfUp (a * b) b + 1) :=
    calc 2 * b * a ≤ 2 * (a * b) + b := by nlinarith
      _ < 2 * b * (halfUp (a * b) b + 1) := lt_halfUp_succ _ hb
  exact Nat.lt_succ_iff.mp (Nat.lt_of_mul_lt_mul_left e)

/-! ## ANALOG values (section 8.2) -/

theorem sum_le_of_forall_le {codes : List Nat} {k : Nat} (h : ∀ c ∈ codes, c ≤ k) : codes.sum ≤ k * codes.length := by
  have := List.sum_le_card_nsmul codes k h
  rwa [smul_eq_mul, Nat.mul_comm] at this

theorem mean16Of_le {codes : List Nat} (hne : codes ≠ []) (h : ∀ c ∈ codes, c ≤ 4095) : mean16Of codes ≤ 65520 :=
  halfUp_le_of_le (List.length_pos_iff.mpr hne) (by have := sum_le_of_forall_le h; omega)

theorem correct_le (m cref : Nat) : correct m cref ≤ 65520 := Nat.min_le_left _ _

theorem correct_le_halfUp (m cref : Nat) : correct m cref ≤ halfUp (m * 3000) cref := Nat.min_le_right _ _

theorem correct_of_lt {m cref : Nat} (h : correct m cref < 65520) : correct m cref = halfUp (m * 3000) cref := by
  unfold correct at h ⊢
  omega

theorem correct_own {m : Nat} (h : m ≤ 65520) : correct m 3000 = m := by
  rw [correct, halfUp_mul_self (by decide), Nat.min_eq_right h]

theorem correct_mono {m m' : Nat} (h : m ≤ m') (cref : Nat) : correct m cref ≤ correct m' cref :=
  min_le_min le_rfl (halfUp_mono (Nat.mul_le_mul_right _ h) _)

theorem scale_mono {c c' : Nat} (h : c ≤ c') (low high : Int) : scale c low high ≤ scale c' low high := by
  have := halfUp_mono (Nat.mul_le_mul_right (high - low).toNat h) 65536
  unfold scale
  omega

/-- A corrected mean below full scale lies in its span. -/
theorem scale_mem_span {c : Nat} {low high : Int} (hc : c ≤ 65536) (hs : low ≤ high) :
    low ≤ scale c low high ∧ scale c low high ≤ high := by
  have h : halfUp (c * (high - low).toNat) 65536 ≤ (high - low).toNat :=
    halfUp_le_of_le (by decide) (by nlinarith)
  unfold scale
  omega

/-- The value of a corrected mean is the share of the span that it stands for, rounded half up. -/
theorem scale_rounds (c : Nat) {low high : Int} (hs : low ≤ high) :
    131072 * (scale c low high - low) ≤ 2 * c * (high - low) + 65536 ∧
      2 * c * (high - low) + 65536 < 131072 * (scale c low high - low + 1) := by
  obtain ⟨d, hd⟩ := Int.eq_ofNat_of_zero_le (show 0 ≤ high - low by omega)
  have h1 := halfUp_le (c * d) 65536
  have h2 := lt_halfUp_succ (c * d) (b := 65536) (by decide)
  have e : scale c low high - low = halfUp (c * d) 65536 := by simp [scale, hd]
  rw [e, hd]
  generalize halfUp (c * d) 65536 = v at h1 h2
  have h3 : ((c * d : Nat) : Int) = c * d := by push_cast; rfl
  rw [mul_assoc, ← h3]
  omega

/-- Settles O53: mean, correction and value, each by its rounding. -/
theorem analogValuesLieInTheirSpan : Obligations.AnalogValuesLieInTheirSpan := by
  unfold Obligations.AnalogValuesLieInTheirSpan
  intro codes cref low high hne hcodes h1 h2 hs
  have hn : 0 < codes.length := List.length_pos_iff.mpr hne
  have hm := mean16Of_le hne hcodes
  have m1 := halfUp_le (16 * codes.sum) codes.length
  have m2 := lt_halfUp_succ (16 * codes.sum) hn
  have c1 := halfUp_le (mean16Of codes * 3000) cref
  have c2 := lt_halfUp_succ (mean16Of codes * 3000) (show 0 < cref by omega)
  have hle := correct_le_halfUp (mean16Of codes) cref
  obtain ⟨v1, v2⟩ := scale_mem_span (c := correct (mean16Of codes) cref) ((correct_le _ _).trans (by decide)) hs
  obtain ⟨v3, v4⟩ := scale_rounds (correct (mean16Of codes) cref) hs
  refine ⟨hm, ?_, ?_, correct_le _ _, ?_, fun hlt => ?_, fun e => ?_, v1, v2, v3, v4, fun more hl hsum => ?_⟩
  · exact m1.trans_eq (by ring)
  · exact lt_of_eq_of_lt (by ring) m2
  · exact (Nat.mul_le_mul_left _ hle).trans (c1.trans_eq (by ring))
  · rw [correct_of_lt hlt]
    exact lt_of_eq_of_lt (by ring) c2
  · subst e
    exact correct_own hm
  · refine scale_mono (correct_mono ?_ _) _ _
    rw [mean16Of, mean16Of, hl]
    exact halfUp_mono (Nat.mul_le_mul_left _ hsum) _

/-! ## TIMING and FRAME_FIELD values (sections 8.4 and 8.5) -/

theorem halfUp_near (a : Nat) {b : Nat} (h : 0 < b) :
    2 * (b : Int) * (halfUp a b : Nat) ≤ 2 * a + b ∧ 2 * (a : Int) + b < 2 * b * ((halfUp a b : Nat) + 1) :=
  ⟨by exact_mod_cast halfUp_le a b, by exact_mod_cast lt_halfUp_succ a h⟩

theorem dataWord_testBit (data : List Byte) (i : Nat) : (dataWord data).testBit i = (data.getD (i / 8) 0).getLsbD (i % 8) := by
  induction data generalizing i with
  | nil => simp [dataWord]
  | cons b data ih =>
    have e : dataWord (b :: data) = 2 ^ 8 * dataWord data + b.toNat := by simp [dataWord, Nat.add_comm]
    rw [e, Nat.testBit_two_pow_mul_add _ b.isLt]
    by_cases h : i < 8
    · simp [h, Nat.div_eq_of_lt h, Nat.mod_eq_of_lt h, BitVec.testBit_toNat]
    · have e1 : i / 8 = (i - 8) / 8 + 1 := by omega
      have e2 : i % 8 = (i - 8) % 8 := by omega
      rw [if_neg h, ih, e1, e2]
      rfl

theorem fieldRaw_unsigned (data : List Byte) (start width : Nat) :
    fieldRaw data start width false = (dataWord data / 2 ^ start % 2 ^ width : Nat) := by simp [fieldRaw]

/-- The bits of a field are those of the data from its start on. -/
theorem fieldRaw_testBit (data : List Byte) (start : Nat) {width k : Nat} (h : k < width) :
    (fieldRaw data start width false).toNat.testBit k = (data.getD ((start + k) / 8) 0).getLsbD ((start + k) % 8) := by
  rw [fieldRaw_unsigned, Int.toNat_natCast, Nat.testBit_mod_two_pow, Nat.testBit_div_two_pow, Nat.add_comm k start, dataWord_testBit]
  simp [h]

/-- A field read in two's complement. -/
theorem fieldRaw_signed (data : List Byte) (start : Nat) {width : Nat} (hw : 1 ≤ width) :
    -(2 ^ (width - 1) : Int) ≤ fieldRaw data start width true ∧ fieldRaw data start width true < 2 ^ (width - 1) ∧
      (fieldRaw data start width true = fieldRaw data start width false ∨
        fieldRaw data start width true = fieldRaw data start width false - 2 ^ width) := by
  rw [fieldRaw_unsigned]
  have hlt : dataWord data / 2 ^ start % 2 ^ width < 2 ^ width := Nat.mod_lt _ (Nat.two_pow_pos _)
  have hp : 2 ^ width = 2 * 2 ^ (width - 1) := by rw [← Nat.pow_succ', Nat.succ_eq_add_one, Nat.sub_add_cancel hw]
  have hp' : (2 : Int) ^ (width - 1) = (2 ^ (width - 1) : Nat) := by push_cast; rfl
  have hq' : (2 : Int) ^ width = (2 ^ width : Nat) := by push_cast; rfl
  unfold fieldRaw
  rw [hp', hq']
  generalize dataWord data / 2 ^ start % 2 ^ width = raw at hlt ⊢
  generalize 2 ^ (width - 1) = half at hp ⊢
  generalize 2 ^ width = whole at hp hlt ⊢
  by_cases h : half ≤ raw
  · simp only [Bool.true_and, h, decide_true, if_true, or_true, and_true]
    omega
  · simp only [Bool.true_and, h, decide_false, Bool.false_eq_true, if_false, true_or, and_true]
    omega

theorem halfAway_of_nonneg {a : Int} (h : 0 ≤ a) (b : Nat) : halfAway a b = halfUp a.natAbs b := if_neg (by omega)

theorem halfAway_neg (a : Int) {b : Nat} (hb : 0 < b) : halfAway (-a) b = -halfAway a b := by
  rcases lt_trichotomy a 0 with h | h | h
  · simp [halfAway, h, show ¬ 0 < a by omega]
  · subst h
    have e : halfUp 0 b = 0 := Nat.div_eq_of_lt (by omega)
    simp [halfAway, e]
  · simp [halfAway, h, show ¬ a < 0 by omega]

/-- Rounding half away from zero is off by at most a half. -/
theorem halfAway_near (a : Int) {b : Nat} (hb : 0 < b) :
    (2 * (b : Int) * halfAway a b - 2 * a).natAbs ≤ b ∧ (0 ≤ a → 2 * a < 2 * b * halfAway a b + b) := by
  obtain ⟨h1, h2⟩ := halfUp_near a.natAbs hb
  rw [mul_add, mul_one] at h2
  unfold halfAway
  split
  · rw [mul_neg]
    generalize 2 * (b : Int) * (halfUp a.natAbs b : Nat) = x at h1 h2 ⊢
    omega
  · generalize 2 * (b : Int) * (halfUp a.natAbs b : Nat) = x at h1 h2 ⊢
    omega

/-- Settles O54: each value by its rounding, and a field bit by bit. -/
theorem fieldAndTimingValuesAreExact : Obligations.FieldAndTimingValuesAreExact := by
  unfold Obligations.FieldAndTimingValuesAreExact
  refine ⟨fun w t h hw ht hle => ?timing, fun data start width _ hw _ _ => ?field, fun raw num den offset hd => ?value⟩
  case timing =>
    have duty : halfUp (1000 * h) t ≤ 1000 := halfUp_le_of_le ht (Nat.mul_le_mul_left _ hle)
    exact ⟨halfUp_near t hw, halfUp_near h hw, halfUp_near (1000 * h) ht, halfUp_near (1000000000 * w) ht,
      Int.ofNat_le.mpr duty⟩
  case field =>
    have hlt : dataWord data / 2 ^ start % 2 ^ width < 2 ^ width := Nat.mod_lt _ (Nat.two_pow_pos _)
    refine ⟨?_, ?_, fun k hk => fieldRaw_testBit data start hk, fieldRaw_signed data start hw⟩
    · rw [fieldRaw_unsigned]; omega
    · rw [fieldRaw_unsigned]; exact_mod_cast hlt
  case value =>
    obtain ⟨h1, h2⟩ := halfAway_near (raw * num) hd
    refine ⟨?_, ?_, ?_, fun h => ?_, halfAway_neg _ hd, fun ha hb => ?_, fun h => ?_, fun h => ?_⟩
    · unfold fieldValue clamp32; omega
    · unfold fieldValue clamp32; omega
    · rwa [mul_assoc 2 raw num]
    · rw [mul_assoc 2 raw num]; exact h2 h
    · unfold fieldValue clamp32; omega
    · unfold fieldValue clamp32; omega
    · unfold fieldValue clamp32; omega

/-! ## Clips, limits and guard bands (section 8.2) -/

theorem clipHigh_iff {codes : List Nat} : clipHigh codes = true ↔ (4095 : Nat) ∈ codes := by simp [clipHigh]

theorem clipLow_iff {codes : List Nat} : clipLow codes = true ↔ (0 : Nat) ∈ codes := by simp [clipLow]

theorem clipHigh_false {codes : List Nat} (h : (4095 : Nat) ∉ codes) : clipHigh codes = false :=
  Bool.eq_false_iff.mpr (mt clipHigh_iff.mp h)

theorem clipLow_false {codes : List Nat} (h : (0 : Nat) ∉ codes) : clipLow codes = false :=
  Bool.eq_false_iff.mpr (mt clipLow_iff.mp h)

/-- A limit that is given and satisfies a test. -/
theorem limit_any {o : Option Int} {q : Int → Bool} (h : ∃ l, o = some l ∧ q l = true) : o.any q = true := by
  obtain ⟨l, rfl, hl⟩ := h
  exact hl

theorem limit_not_any {o : Option Int} {q : Int → Bool} (h : ∀ l, o = some l → q l = false) : o.any q = false := by
  cases o with
  | none => rfl
  | some l => exact h l rfl

section

variable {codes : List Nat} {value low high : Int} {lower upper : Option Int} {guard : Nat}

theorem judgeAnalog_ref : judgeAnalog true codes value (low, high) lower upper guard = (.incomplete, .ref, value) := rfl

theorem judgeAnalog_both (ht : (4095 : Nat) ∈ codes) (hb : (0 : Nat) ∈ codes) :
    judgeAnalog false codes value (low, high) lower upper guard = (.incomplete, .saturated, value) := by
  simp [judgeAnalog, clipHigh_iff.mpr ht, clipLow_iff.mpr hb]

theorem judgeAnalog_top (ht : (4095 : Nat) ∈ codes) (hb : (0 : Nat) ∉ codes) :
    judgeAnalog false codes value (low, high) lower upper guard =
      if upper.any (fun u => u < high) then (.fail, .high, high) else (.incomplete, .saturated, value) := by
  simp [judgeAnalog, clipHigh_iff.mpr ht, clipLow_false hb]

theorem judgeAnalog_bottom (ht : (4095 : Nat) ∉ codes) (hb : (0 : Nat) ∈ codes) :
    judgeAnalog false codes value (low, high) lower upper guard =
      if lower.any (fun l => low < l) then (.fail, .low, low) else (.incomplete, .saturated, value) := by
  simp [judgeAnalog, clipHigh_false ht, clipLow_iff.mpr hb]

theorem judgeAnalog_unclipped (ht : (4095 : Nat) ∉ codes) (hb : (0 : Nat) ∉ codes) :
    judgeAnalog false codes value (low, high) lower upper guard =
      ((judgeLimits value lower upper guard).1, (judgeLimits value lower upper guard).2, value) := by
  simp [judgeAnalog, clipHigh_false ht, clipLow_false hb]

end

section

variable {v : Int} {lower upper : Option Int} {g : Nat}

theorem judgeLimits_below (h : ∃ l, lower = some l ∧ v < l) : judgeLimits v lower upper g = (.fail, .low) := by
  rw [judgeLimits, if_pos (limit_any (by simpa using h))]

theorem judgeLimits_above (hl : ¬ ∃ l, lower = some l ∧ v < l) (h : ∃ u, upper = some u ∧ u < v) :
    judgeLimits v lower upper g = (.fail, .high) := by
  rw [judgeLimits, if_neg, if_pos (limit_any (by simpa using h))]
  rw [limit_not_any fun l e => by simpa using fun k => hl ⟨l, e, k⟩]
  decide

/-- A value within its limits is judged by the guard bands. -/
theorem judgeLimits_within (hl : ¬ ∃ l, lower = some l ∧ v < l) (hu : ¬ ∃ u, upper = some u ∧ u < v) :
    judgeLimits v lower upper g =
      match inLowBand v lower g, inHighBand v upper g with
      | true, false => (.marginal, .low)
      | false, true => (.marginal, .high)
      | true, true => if v - lower.getD 0 ≤ upper.getD 0 - v then (.marginal, .low) else (.marginal, .high)
      | false, false => (.pass, .none) := by
  have notBelow : ¬ lower.any (fun l => v < l) = true := by
    rw [limit_not_any fun l e => by simpa using fun k => hl ⟨l, e, k⟩]
    decide
  have notAbove : ¬ upper.any (fun u => u < v) = true := by
    rw [limit_not_any fun u e => by simpa using fun k => hu ⟨u, e, k⟩]
    decide
  exact (if_neg notBelow).trans (if_neg notAbove)

theorem inLowBand_iff : inLowBand v lower g = true ↔ ∃ l, lower = some l ∧ v < l + g := by
  cases lower <;> simp [inLowBand]

theorem inHighBand_iff : inHighBand v upper g = true ↔ ∃ u, upper = some u ∧ u - g < v := by
  cases upper <;> simp [inHighBand]

/-- Between two limits with some guard band reached, the nearer limit names the reason, and a tie goes to LOW. -/
theorem judgeLimits_nearer {l u : Int} (hl : ¬ v < l) (hu : ¬ u < v)
    (hband : inLowBand v (some l) g = true ∨ inHighBand v (some u) g = true) :
    judgeLimits v (some l) (some u) g = if v - l ≤ u - v then (.marginal, .low) else (.marginal, .high) := by
  rw [judgeLimits_within (by simpa using hl) (by simpa using hu)]
  have low : inLowBand v (some l) g = decide (v < l + g) := rfl
  have high : inHighBand v (some u) g = decide (u - g < v) := rfl
  rw [low, high] at hband ⊢
  by_cases h1 : v < l + g
  · by_cases h2 : u - g < v
    · simp [h1, h2]
    · rw [if_pos (show v - (l : Int) ≤ u - v by omega)]; simp [h1, h2]
  · have h2 : u - g < v := by simpa [h1] using hband
    rw [if_neg (show ¬ v - (l : Int) ≤ u - v by omega)]; simp [h1, h2]

end

/-- Settles O55: the rows of R149 and R150. -/
theorem clipsLimitsAndGuardBands : Obligations.ClipsLimitsAndGuardBands := by
  unfold Obligations.ClipsLimitsAndGuardBands
  refine ⟨fun refFault codes value low high lower upper guard => ⟨fun h => ?_, fun h => ?_⟩, fun v lower upper g hlu => ?limits⟩
  · subst h; exact judgeAnalog_ref
  · subst h
    refine ⟨judgeAnalog_both, fun ht hb h => ?_, fun ht hb h => ?_, fun ht hb h => ?_, fun ht hb h => ?_, judgeAnalog_unclipped⟩
    · exact (judgeAnalog_top ht hb).trans (if_pos (limit_any (by simpa using h)))
    · refine (judgeAnalog_top ht hb).trans (if_neg ?_)
      rw [limit_not_any fun u e => by simpa using h u e]
      decide
    · exact (judgeAnalog_bottom ht hb).trans (if_pos (limit_any (by simpa using h)))
    · refine (judgeAnalog_bottom ht hb).trans (if_neg ?_)
      rw [limit_not_any fun l e => by simpa using h l e]
      decide
  case limits =>
    refine ⟨judgeLimits_below, fun h => judgeLimits_above ?_ h, fun hl hu => ?_⟩
    · rintro ⟨l, hl, hvl⟩
      obtain ⟨u, hu, huv⟩ := h
      have := hlu l u hl hu
      omega
    · have e := judgeLimits_within (g := g) hl hu
      refine ⟨fun h1 h2 => ?_, fun h1 h2 => ?_, fun h1 h2 => ?_, fun hband l u h3 h4 => ?_⟩
      · rw [← inLowBand_iff] at h1
        rw [← inHighBand_iff] at h2
        rw [e, Bool.eq_false_iff.mpr h1, Bool.eq_false_iff.mpr h2]
      · rw [← inLowBand_iff] at h1
        rw [← inHighBand_iff] at h2
        rw [e, h1, Bool.eq_false_iff.mpr h2]
      · rw [← inLowBand_iff] at h1
        rw [← inHighBand_iff] at h2
        rw [e, Bool.eq_false_iff.mpr h1, h2]
      · subst h3 h4
        rw [← inLowBand_iff, ← inHighBand_iff] at hband
        have k := judgeLimits_nearer (fun h => hl ⟨l, rfl, h⟩) (fun h => hu ⟨u, rfl, h⟩) hband
        exact ⟨fun h => k.trans (if_pos h), fun h => k.trans (if_neg (by omega))⟩

end Sys2Proof.Machine
end

section
/-! PROOFS. OPEN_RUN, END_RUN and ABORT_RUN (section 1.2). -/

namespace Sys2Proof.Machine

open Sys2Proof

/-! ## Entry to HALTING, seen from the request -/

/-- The start of an entry to HALTING may differ in the run's state and in the link. -/
theorem Part.Halted.of_start {f : FixtureIx} {r : HaltReason} {p p' q : Part} {st : RunState} (h : p'.Halted f r q)
    (hx : p'.fx f = { p.fx f with run := { (p.fx f).run with state := st } }) (ho : ∀ g, g ≠ f → p'.fx g = p.fx g)
    (hr : { p' with fixtures := p.fixtures, link := p.link } = p) : p.Halted f r q := by
  have hch : ∀ c, p'.ch c = p.ch c := Part.ch_congr (p := p) (q := p') (congrArg Part.channels hr :)
  have hcon : ∀ k, p'.con k = p.con k := by
    intro k; cases k
    · exact (congrArg Part.consoleA hr :)
    · exact (congrArg Part.consoleB hr :)
  have hconv : p'.conv = p.conv := (congrArg Part.conv hr :)
  have hclock : p'.clock = p.clock := (congrArg Part.clock hr :)
  have hup : p'.uptime = p.uptime := by rw [Part.uptime, Part.uptime, hclock]
  obtain ⟨h1, h2, h3, h4, h5, h6, h7, h8, h9, h10, h11, h12, h13, h14, h15, h16, h17, h18⟩ := h
  simp only [hx, hch, hcon, hconv, hclock, hup] at h3 h4 h5 h7 h8 h9 h10 h11 h12 h14 h15 h16 h17
  refine ⟨h1, h2, h3, h4, h5, h6, h7, h8, h9, h10, h11, h12, fun g hg => (h13 g hg).trans (ho g hg), h14, h15, h16, h17, ?_⟩
  rw [← hr, ← h18]

/-- The end of an entry to HALTING may differ in the link. -/
theorem Part.Halted.of_link {f : FixtureIx} {r : HaltReason} {p q q' : Part} (h : p.Halted f r q)
    (e : { q' with link := q.link } = q) : p.Halted f r q' := by
  have hfx : ∀ g, q'.fx g = q.fx g := Part.fx_congr (p := q) (q := q') (congrArg Part.fixtures e :)
  have hch : ∀ c, q'.ch c = q.ch c := Part.ch_congr (p := q) (q := q') (congrArg Part.channels e :)
  have hcon : ∀ k, q'.con k = q.con k := by
    intro k; cases k
    · exact (congrArg Part.consoleA e :)
    · exact (congrArg Part.consoleB e :)
  have hconv : q'.conv = q.conv := (congrArg Part.conv e :)
  obtain ⟨h1, h2, h3, h4, h5, h6, h7, h8, h9, h10, h11, h12, h13, h14, h15, h16, h17, h18⟩ := h
  simp only [← hfx, ← hch, ← hcon, ← hconv] at h1 h2 h3 h4 h5 h6 h7 h8 h9 h10 h11 h12 h13 h14 h15 h16 h17
  refine ⟨h1, h2, h3, h4, h5, h6, h7, h8, h9, h10, h11, h12, h13, h14, h15, h16, h17, ?_⟩
  rw [← h18, ← e]

/-- A request's answer that halted a run: what the halt did stands behind the reply. -/
theorem Part.Halted.replied {f : FixtureIx} {r : HaltReason} {p q : Part} (h : p.Halted f r q) (ty tag : Byte) (data : List Byte) :
    p.Halted f r (q.replied ty tag data) := h.of_link rfl

theorem Part.asked_halted {f : FixtureIx} {r : HaltReason} {p q : Part} {ty tag : Byte} (h : (p.asked ty tag).Halted f r q) :
    p.Halted f r q :=
  h.of_start (st := (p.fx f).run.state) rfl (fun _ _ => rfl) rfl

/-! ## OPEN_RUN (R7) -/

theorem policyOf_code {k : Nat} {c : Policy} (h : policyOf k = some c) : c.code = k := by
  unfold policyOf at h
  split_ifs at h with h0 h1 h2 <;> cases h <;> simp [Policy.code, *]

theorem busRateOf_code {k : Nat} {c : BusRate} (h : busRateOf k = some c) : c.code = k := by
  unfold busRateOf at h
  split_ifs at h with h0 h1 h2 <;> cases h <;> simp [BusRate.code, *]

theorem policyOf_none {k : Nat} (h : 2 < k) : policyOf k = none := by
  rw [policyOf, if_neg (by omega), if_neg (by omega), if_neg (by omega)]

theorem busRateOf_none {k : Nat} (h : 2 < k) : busRateOf k = none := by
  rw [busRateOf, if_neg (by omega), if_neg (by omega), if_neg (by omega)]

theorem finOf_eq_some {n k : Nat} {c : Fin n} : finOf n k = some c ↔ k = c.val := by
  unfold finOf
  split
  · rw [Option.some_inj, Fin.ext_iff]
  · rename_i h
    exact ⟨nofun, fun e => absurd (e ▸ c.isLt) h⟩

theorem finOf_none {n k : Nat} (h : n ≤ k) : finOf n k = none := dif_neg (by omega)

/-- A field of OPEN_RUN out of its bounds (R7, check 2). -/
theorem parseOpenRun_eq_none {payload : List Byte}
    (h : 2 < byteAt payload 1 ∨ 3 < byteAt payload 2 ∨ 2 < byteAt payload 3 ∨ 24 < byteAt payload 8) (now : BitVec 32) :
    parseOpenRun payload now = none := by
  rw [Option.eq_none_iff_forall_not_mem]
  intro u hu
  simp only [Option.mem_def, parseOpenRun, Option.bind_eq_bind, Option.bind_eq_some_iff, need_eq_some_iff, decide_eq_true_eq] at hu
  obtain ⟨policy, hp, priority, hl, rate, hr, _, hn, _⟩ := hu
  rcases h with h | h | h | h
  · rw [policyOf_none h] at hp; cases hp
  · rw [finOf_none h] at hl; cases hl
  · rw [busRateOf_none h] at hr; cases hr
  · omega

/-- The run record that OPEN_RUN's fields give. -/
theorem parseOpenRun_fields {payload : List Byte} {now : BitVec 32} {u : Run} (h : parseOpenRun payload now = some u) :
    u = { state := .active, runId := BitVec.ofNat 32 (u32At payload 4), label := (payload.drop 9).take (byteAt payload 8)
          policy := u.policy, priority := u.priority, busRate := u.busRate, openedAt := now } ∧
      u.policy.code = byteAt payload 1 ∧ u.priority.val = byteAt payload 2 ∧ u.busRate.code = byteAt payload 3 := by
  simp only [parseOpenRun, Option.bind_eq_bind, Option.bind_eq_some_iff] at h
  obtain ⟨policy, hp, priority, hl, rate, hr, _, _, hu⟩ := h
  cases hu
  exact ⟨rfl, policyOf_code hp, (finOf_eq_some.mp hl).symm, busRateOf_code hr⟩

/-- A number that is no fitted fixture's. -/
theorem Part.atFixture_none {p : Part} {payload : List Byte} {i : Nat}
    (h : ∀ f : FixtureIx, byteAt payload i = f.val → p.isFitted f = false) (g : FixtureIx → Part → Answer) :
    p.atFixture payload i g = p.refuse .notFitted := by
  unfold Part.atFixture Part.namedFixture
  cases hf : finOf 8 (byteAt payload i) with
  | none => rfl
  | some f => simp only [h f (finOf_eq_some.mp hf), Bool.false_eq_true, if_false]

theorem Part.openRun_badField {p : Part} {f : FixtureIx} {payload : List Byte} (hf : p.isFitted f = true) (hn : payload.length = 33)
    (hb : byteAt payload 0 = f.val)
    (h : 2 < byteAt payload 1 ∨ 3 < byteAt payload 2 ∨ 2 < byteAt payload 3 ∨ 24 < byteAt payload 8) :
    p.openRun payload = p.refuse .badField := by
  simp only [Part.openRun, Part.ofLength, hn, if_true, Part.atFixture_fitted hf hb, parseOpenRun_eq_none h]

theorem Part.openRun_accepted {p : Part} {f : FixtureIx} {payload : List Byte} {u : Run} (hf : p.isFitted f = true)
    (hn : payload.length = 33) (hb : byteAt payload 0 = f.val) (hu : parseOpenRun payload p.uptime = some u)
    (hc : p.openRefusal f = none) : p.openRun payload = (p.openAs f u).accept (le32 u.openedAt.toNat) := by
  simp only [Part.openRun, Part.ofLength, hn, if_true, Part.atFixture_fitted hf hb, hu, hc]

/-- A fixture whose run opens. -/
def Fixture.opened (u : Run) (x : Fixture) : Fixture :=
  { x with
    outs := { pins := x.outs.pins }, capture := { x.capture with state := .idle }, run := u, queue := [], stalled := false, log := []
    port := { x.port with state := .active, queue := [], attempt := .none }, watch := mapEntries Watch.cleared x.watch }

theorem Part.openAs_eq (p : Part) (f : FixtureIx) (u : Run) :
    p.openAs f u = (p.modFx f (Fixture.opened u)).post (.runState f u.state u.verdict u.haltReason) := by
  unfold Part.openAs Part.outputDefaults Part.postRunState
  rw [Part.modFx_modFx, Part.modFx_fx]
  rfl

theorem Part.openRefusal_asked (p : Part) (a b : Byte) (f : FixtureIx) : (p.asked a b).openRefusal f = p.openRefusal f := by
  rw [Part.openRefusal, Part.asked_con]
  rfl

/-- Settles O18: each row of the table, and the fixture that opens. -/
theorem openRunFollowsItsTable : Obligations.OpenRunFollowsItsTable := by
  unfold Obligations.OpenRunFollowsItsTable
  intro s tag payload hl hroom
  have refusedBy : ∀ {c : ResultCode}, (s.part.asked 0x10 tag).openRun payload = (s.part.asked 0x10 tag).refuse c →
      exec (.openRun tag payload) s = .next (s.withPart (s.part.answered 0x90 tag [BitVec.ofNat 8 c.code])) :=
    fun h => request_refused hl (by decide) h
  refine ⟨fun h => refusedBy (Part.ofLength_of_ne h _), fun hn h => refusedBy (c := .notFitted) ((if_pos hn).trans (Part.atFixture_none (p := s.part.asked 0x10 tag) h _)),
    fun hn f hb hf => ?_⟩
  dsimp only
  by_cases hfields : 2 < byteAt payload 1 ∨ 3 < byteAt payload 2 ∨ 2 < byteAt payload 3 ∨ 24 < byteAt payload 8
  · rw [if_pos hfields]
    exact refusedBy (Part.openRun_badField hf hn hb hfields)
  rw [if_neg hfields]
  obtain ⟨u, hu⟩ := parseOpenRun_eq_some (payload := payload) (by omega) (by omega) (by omega) (by omega) s.part.uptime
  have row : ∀ {c : ResultCode}, s.part.openRefusal f = some c →
      exec (.openRun tag payload) s = .next (s.withPart (s.part.answered 0x90 tag [BitVec.ofNat 8 c.code])) := fun h =>
    refusedBy (Part.openRun_refused hf hn hb hu ((Part.openRefusal_asked _ _ _ f).trans h))
  have hcon : (if f.val < 4 then ConsoleId.a else .b) = consoleFor f := rfl
  rw [hcon]
  split_ifs with h1 h2 h3 h4 h5 h6
  · exact row (c := .wrongState) (by simp [Part.openRefusal, h1])
  · exact row (c := .stopped) (by simp [Part.openRefusal, not_not.mp h1, h2])
  · exact row (c := .faultLatched) (by simp [Part.openRefusal, not_not.mp h1, h2, h3])
  · exact row (c := .wrongState) (by simp [Part.openRefusal, not_not.mp h1, h2, h4])
  · exact row (c := .noUnit) (by simp [Part.openRefusal, not_not.mp h1, h2, h3, h4, h5])
  · exact row (c := .lidOpen) (by simp [Part.openRefusal, not_not.mp h1, h2, h3, h4, h5, h6])
  · have hnone : s.part.openRefusal f = none := by simp [Part.openRefusal, not_not.mp h1, h2, h3, h4, h5, h6]
    obtain ⟨hfields, hpolicy, hpriority, hrate⟩ := parseOpenRun_fields hu
    have hans : (s.part.asked 0x10 tag).openRun payload =
        (((s.part.modFx f (Fixture.opened u)).noticed [.runState f .active .pass .none]).asked 0x10 tag,
          0x00 :: le32 s.part.uptime.toNat) := by
      have hstate : u.state = .active := (congrArg Run.state hfields :)
      have hverdict : u.verdict = .pass := (congrArg Run.verdict hfields :)
      have hreason : u.haltReason = .none := (congrArg Run.haltReason hfields :)
      have hopened : u.openedAt = s.part.uptime := (congrArg Run.openedAt hfields :)
      rw [Part.openRun_accepted (p := s.part.asked 0x10 tag) hf hn hb hu ((Part.openRefusal_asked _ _ _ f).trans hnone),
        Part.openAs_eq, Part.asked_modFx, Part.asked_post_room (p := s.part.modFx f (Fixture.opened u)) hroom, hstate, hverdict, hreason, hopened]
      rfl
    refine ⟨_, request_answered hl (by decide) _ hans hl.free hl.noRequest hl.noReply, rfl, ⟨rfl, fun g hg => ?_⟩, rfl, ?_⟩
    · exact Part.modFx_fx_ne _ _ hg
    · have hx : ((s.withPart (((s.part.modFx f (Fixture.opened u)).noticed [.runState f .active .pass .none]).answered (0x10 + 0x80) tag
          (0x00 :: le32 s.part.uptime.toNat))).part.fx f) = Fixture.opened u (s.part.fx f) := Part.modFx_fx _ _ _
      rw [hx]
      refine ⟨hfields, hpolicy, hpriority, hrate, rfl, rfl, rfl, rfl, rfl, rfl, rfl, rfl, rfl, fun e => ?_, ?_⟩
      · exact getElem_mapEntries _ _ _ _
      · have ho : u.isOpen = true := by rw [hfields]; rfl
        have hp : s.part.powered = true := hl.powered
        show (s.part.powered && s.part.isFitted f && _) = true
        rw [hp, hf, hx]
        simp [Fixture.opened, ho]

end Sys2Proof.Machine
end

section
/-! PROOFS. END_RUN and ABORT_RUN, and the notices of a halt (section 1.2). -/

namespace Sys2Proof.Machine

open Sys2Proof

/-! ## The notices of a halt -/

/-- With no burst in progress an operation posts nothing, and no burst begins. -/
def Part.Still (p q : Part) : Prop := p.conv.burst = none → q.conv.burst = none ∧ q.link = p.link

theorem Part.Still.of_same {p q : Part} (hb : q.conv.burst = p.conv.burst) (hl : q.link = p.link) : p.Still q :=
  fun h => ⟨hb.trans h, hl⟩

theorem Part.Still.refl (p : Part) : p.Still p := .of_same rfl rfl

theorem Part.Still.trans {p q r : Part} (h : p.Still q) (k : q.Still r) : p.Still r := by
  intro hb
  obtain ⟨h1, h2⟩ := h hb
  obtain ⟨k1, k2⟩ := k h1
  exact ⟨k1, k2.trans h2⟩

theorem Part.withdraw_still (p : Part) (f : FixtureIx) : p.Still (p.withdraw f) := by
  intro hb
  rw [Part.withdraw_plain fun b e => by rw [hb] at e; cases e]
  exact ⟨hb, rfl⟩

theorem Part.rangeHigh_still (p : Part) (f : FixtureIx) : p.Still (p.rangeHigh f) := by
  unfold Part.rangeHigh
  split
  · intro hb
    exact ⟨by show p.conv.burst.map _ = none; rw [hb]; rfl, rfl⟩
  · exact .refl p

theorem Part.removeNormal_still (p : Part) (f : FixtureIx) : p.Still (p.removeNormal f) :=
  .of_same (by rw [Part.removeNormal, Part.modCon_conv]) (by rw [Part.removeNormal, Part.modCon_link])

theorem Part.releaseStep_still (p : Part) (f : FixtureIx) : p.Still (p.releaseStep f) := by
  unfold Part.releaseStep
  split
  · exact .refl p
  · split
    · exact .refl p
    · exact .refl p
    · exact (p.withdraw_still f).trans (Part.rangeHigh_still _ f)
    · exact p.withdraw_still f
    · exact .of_same rfl rfl
    · exact p.removeNormal_still f

theorem Part.finishStep_still (p : Part) (f : FixtureIx) (e : StepEnd) : p.Still (p.finishStep f e) := by
  unfold Part.finishStep
  split
  · exact .refl p
  · exact (p.releaseStep_still f).trans (.of_same rfl rfl)

theorem Part.endDischarge_still (p : Part) (f : FixtureIx) : p.Still (p.endDischarge f) := by
  unfold Part.endDischarge
  split
  · split <;> exact .of_same rfl rfl
  · exact .refl p

theorem Part.disconnect_still (p : Part) (f : FixtureIx) (r : TripReason) : p.Still (p.disconnect f r) := by
  have cleared : (p.rangeHigh f).Still ((p.rangeHigh f).clearBelow f) := .of_same rfl rfl
  exact ((p.rangeHigh_still f).trans cleared).trans
    (.trans (.of_same rfl rfl) (Part.endDischarge_still (((p.rangeHigh f).clearBelow f).modSupply f _) f))

theorem Part.disconnect_run (p : Part) (f : FixtureIx) (r : TripReason) : ((p.disconnect f r).fx f).run = (p.fx f).run := by
  obtain ⟨h, _, _, e⟩ := p.disconnect_eq f r
  rw [e, Part.modSupply_fx, h.fx_eq]

theorem Part.endRun_of_ne {p : Part} {f : FixtureIx} (h : (p.fx f).run.state ≠ .halting) : p.endRun f = p := if_neg fun k => h k.1

theorem Part.cutSupply_still {p : Part} {f : FixtureIx} (h : (p.fx f).run.state ≠ .halting) : p.Still (p.cutSupply f) := by
  unfold Part.cutSupply
  split
  · rw [Part.endRun_of_ne (by rwa [Part.disconnect_run])]
    exact p.disconnect_still f .none
  · exact .refl p

/-- Behind a reply that waits a notice queues. -/
theorem Part.post_behind_reply {p : Part} (hr : p.link.reply ≠ none) (hn : p.link.notices.length < 32) (n : Notice) :
    (p.post n).link.notices = p.link.notices ++ [n] := by
  rw [Part.post_queued (.inr (.inl hr)) hn]

/-- What a HALTING run posts on its way to ENDED, if its supply lets it. -/
theorem Part.endRun_notices {p : Part} {f : FixtureIx} (hs : (p.fx f).run.state = .halting) (hr : p.link.reply ≠ none)
    (hn : p.link.notices.length < 32) :
    ((p.endRun f).fx f).run.verdict = (p.fx f).run.verdict ∧ (p.endRun f).link.notices = p.link.notices ++
      if ((p.endRun f).fx f).run.state = .ended then [.runState f .ended (p.fx f).run.verdict (p.fx f).run.haltReason] else [] := by
  by_cases h : (p.fx f).supply.state = .off ∨ (p.fx f).supply.state = .tripped
  · have e : p.endRun f = (p.modFx f fun x => { x with run := { x.run with state := .ended }, port := x.port.shut }).post
        (.runState f .ended (p.fx f).run.verdict (p.fx f).run.haltReason) := by
      rw [Part.endRun, if_pos ⟨hs, h⟩, Part.postRunState, Part.modFx_fx]
    have hx : (p.endRun f).fx f = { p.fx f with run := { (p.fx f).run with state := .ended }, port := (p.fx f).port.shut } := by
      rw [e, Part.post_fx, Part.modFx_fx]
    refine ⟨by rw [hx], ?_⟩
    rw [hx, if_pos rfl, e]
    exact Part.post_behind_reply (p := p.modFx f fun x => { x with run := { x.run with state := .ended }, port := x.port.shut }) hr hn _
  · have e : p.endRun f = p := if_neg fun k => h k.2
    rw [e, if_neg (by rw [hs]; decide)]
    exact ⟨rfl, (List.append_nil _).symm⟩

/-- Entry to HALTING up to the cut of the supply: the step, the queue, the channels, the outputs and the port have stopped. -/
def Part.quenched (p : Part) (f : FixtureIx) : Part :=
  ((((((p.finishStep f (.incomplete .aborted)).modFx f Fixture.dropQueue).removeNormal f).stopChannels f).withdraw f).outputDefaults
    f).modPort f Port.flush

/-- The run record at the entry to HALTING. -/
def Run.halted (r : HaltReason) (u : Run) : Run :=
  { u with state := .halting, haltReason := r, verdict := if r = .none then u.verdict else u.verdict.max .incomplete }

theorem Part.enterHalting_eq (p : Part) (f : FixtureIx) (r : HaltReason) :
    p.enterHalting f r = ((((p.quenched f).cutSupply f).modRun f (Run.halted r)).postRunState f).endRun f := rfl

theorem Part.quenched_still (p : Part) (f : FixtureIx) : p.Still (p.quenched f) := by
  have stopped : p.Still ((((p.finishStep f (.incomplete .aborted)).modFx f Fixture.dropQueue).removeNormal f).stopChannels f) :=
    .trans ((p.finishStep_still f _).trans
      (.trans (.of_same rfl rfl) (Part.removeNormal_still ((p.finishStep f _).modFx f Fixture.dropQueue) f))) (.of_same rfl rfl)
  exact stopped.trans ((Part.withdraw_still _ f).trans (.of_same rfl rfl))

theorem Part.finishStep_runState (p : Part) (f : FixtureIx) (e : StepEnd) :
    ((p.finishStep f e).fx f).run.state = (p.fx f).run.state := by
  obtain ⟨_, _, _, h⟩ := p.finishStep_fx f e
  rw [h]
  dsimp only
  split <;> rfl

theorem Part.quenched_runState (p : Part) (f : FixtureIx) : ((p.quenched f).fx f).run.state = (p.fx f).run.state := by
  rw [Part.quenched, Part.modPort_fx, Part.outputDefaults, Part.modFx_fx, (Part.withdraw_only _ f).1.fx, ← p.finishStep_runState f
    (.incomplete .aborted)]
  show ((((p.finishStep f _).modFx f Fixture.dropQueue).removeNormal f).fx f).run.state = _
  rw [Part.removeNormal, Part.modCon_fx, Part.modFx_fx]
  rfl

/-- The notices of a halt while a reply waits and no burst is in progress: HALTING, and ENDED if the run passes on at once. -/
theorem Part.enterHalting_notices {p : Part} {f : FixtureIx} (ho : (p.fx f).run.isOpen = true) (r : HaltReason)
    (hb : p.conv.burst = none) (hr : p.link.reply ≠ none) (hn : p.link.notices.length + 2 ≤ 32) :
    (p.enterHalting f r).link.notices = p.link.notices ++ [.runState f .halting ((p.enterHalting f r).fx f).run.verdict r] ++
      if ((p.enterHalting f r).fx f).run.state = .ended then
        [.runState f .ended ((p.enterHalting f r).fx f).run.verdict r]
      else [] := by
  have hs : ((p.quenched f).fx f).run.state ≠ .halting := by
    rw [Part.quenched_runState]
    exact Run.state_ne_halting ho
  obtain ⟨_, hlink⟩ := ((p.quenched_still f).trans (Part.cutSupply_still hs)) hb
  rw [Part.enterHalting_eq]
  generalize hq : ((p.quenched f).cutSupply f).modRun f (Run.halted r) = q
  have hstate : (q.fx f).run.state = .halting := by rw [← hq, Part.modRun_fx]; rfl
  have hreason : (q.fx f).run.haltReason = r := by rw [← hq, Part.modRun_fx]; rfl
  have hql : q.link = p.link := by rw [← hq]; exact hlink
  have first : (q.postRunState f).link.notices = p.link.notices ++ [.runState f .halting (q.fx f).run.verdict r] := by
    rw [Part.postRunState, hstate, hreason, Part.post_behind_reply (by rwa [hql]) (by rw [hql]; omega), hql]
  have hreply : (q.postRunState f).link.reply ≠ none := by
    rw [Part.postRunState, Part.post_queued (.inr (.inl (by rwa [hql]))) (by rw [hql]; omega), hql]
    exact hr
  have hroom : (q.postRunState f).link.notices.length < 32 := by rw [first]; simp; omega
  have hx : (q.postRunState f).fx f = q.fx f := rfl
  obtain ⟨hv, hlast⟩ := Part.endRun_notices (p := q.postRunState f) hstate hreply hroom
  rw [hv, hlast, hx, first, hreason]

/-! ## END_RUN and ABORT_RUN -/

theorem exec_accepted {c : Instr} {fr : Frame} {s : State} (hc : requestFrame c = some fr) (ht : fr.ty.toNat < 0x70) (hl : s.Listening)
    {q : Part} {data : List Byte} (hd : (s.part.asked fr.ty fr.tag).dispatch fr = q.accept data) :
    exec c s = .next (s.withPart (q.replied fr.ty fr.tag (0x00 :: data))) := by
  rw [exec_answer hc ht hl, hd]
  rfl

theorem Part.requestEnd_unfitted {p : Part} {f : FixtureIx} (hf : p.isFitted f = false) :
    p.requestEnd [BitVec.ofNat 8 f.val] = p.refuse .notFitted := Part.ofFixture_unfitted hf _

theorem Part.requestAbort_unfitted {p : Part} {f : FixtureIx} (hf : p.isFitted f = false) :
    p.requestAbort [BitVec.ofNat 8 f.val] = p.refuse .notFitted := Part.ofFixture_unfitted hf _

theorem Part.requestEnd_fitted {p : Part} {f : FixtureIx} (hf : p.isFitted f = true) :
    p.requestEnd [BitVec.ofNat 8 f.val] =
      if (p.fx f).run.state = .active then
        (((p.modRun f fun u => { u with state := .closing }).postRunState f).runQueue f).accept []
      else p.refuse .wrongState := Part.ofFixture_fitted hf _

theorem Part.requestAbort_fitted {p : Part} {f : FixtureIx} (hf : p.isFitted f = true) :
    p.requestAbort [BitVec.ofNat 8 f.val] =
      if (p.fx f).run.isOpen then (p.haltRequest f .abortRequest).accept []
      else if (p.fx f).run.state = .halting then p.accept []
      else p.refuse .wrongState := Part.ofFixture_fitted hf _

theorem Part.runQueue_closing {p : Part} {f : FixtureIx} (hs : (p.fx f).run.state = .closing) (hi : (p.fx f).inflight = none)
    (hq : (p.fx f).queue = []) : p.runQueue f = p.enterHalting f .none := by
  have ho : (p.fx f).run.isOpen = true := Run.isOpen_iff.mpr (.inr hs)
  rw [Part.runQueue, Part.runQueueWith]
  simp only [ho, hi, hq, hs, Option.isNone_none, Bool.and_self, if_true]

theorem Part.runQueue_inflight {p : Part} {f : FixtureIx} (h : (p.fx f).inflight ≠ none) : p.runQueue f = p :=
  Part.runQueueWith_inflight (Option.isSome_iff_ne_none.mpr h)

theorem Part.runQueue_closed {p : Part} {f : FixtureIx} (h : (p.fx f).run.isOpen = false) : p.runQueue f = p :=
  Part.runQueueWith_closed h

/-- The run of a fixture as END_RUN leaves it at first. -/
theorem Part.closing_fx (p : Part) (f : FixtureIx) :
    ((p.modRun f fun u => { u with state := .closing }).postRunState f).fx f =
      { p.fx f with run := { (p.fx f).run with state := .closing } } := by
  rw [Part.postRunState, Part.post_fx, Part.modRun_fx]

/-- END_RUN with nothing left to do: the run passes on into HALTING. -/
theorem Part.requestEnd_empty {p : Part} {f : FixtureIx} (hf : p.isFitted f = true) (hs : (p.fx f).run.state = .active)
    (hi : (p.fx f).inflight = none) (hq : (p.fx f).queue = []) :
    ∃ q, p.requestEnd [BitVec.ofNat 8 f.val] = q.accept [] ∧ p.Halted f .none q := by
  have e := p.closing_fx f
  have hrest : { (p.modRun f fun u => { u with state := .closing }).postRunState f with fixtures := p.fixtures, link := p.link } = p :=
    rfl
  have hother : ∀ g, g ≠ f → ((p.modRun f fun u => { u with state := .closing }).postRunState f).fx g = p.fx g := fun g hg => by
    rw [Part.postRunState, Part.post_fx, Part.modRun_fx_ne _ _ hg]
  rw [Part.requestEnd_fitted hf, if_pos hs]
  generalize (p.modRun f fun u => { u with state := .closing }).postRunState f = p' at e hrest hother
  have hc : (p'.fx f).run.state = .closing := by rw [e]
  rw [Part.runQueue_closing hc (by rw [e]; exact hi) (by rw [e]; exact hq)]
  exact ⟨_, rfl, (Part.enterHalting_halted (Run.isOpen_iff.mpr (.inr hc)) .none).of_start e hother hrest⟩

/-- Settles O19: CLOSING with a step in flight, and HALTING by the one entry to it. -/
theorem endAndAbortCloseTheRun : Obligations.EndAndAbortCloseTheRun := by
  unfold Obligations.EndAndAbortCloseTheRun
  refine ⟨fun s tag f hl hroom => ⟨fun hf => ?_, fun hf hs => ?_, fun hf hs hi => ?_, fun hf hs hi hq => ?_⟩,
    fun s tag f hl => ⟨fun hf => ?_, fun hf hs => ?_, fun hf hs => ?_, fun hf ho => ?_⟩⟩
  · exact request_refused hl (by decide) (Part.requestEnd_unfitted (p := s.part.asked 0x11 tag) hf)
  · exact request_refused hl (by decide) ((Part.requestEnd_fitted (p := s.part.asked 0x11 tag) hf).trans (if_neg hs))
  · refine request_answered hl (by decide) _ ?_ hl.free hl.noRequest hl.noReply
    refine (Part.requestEnd_fitted (p := s.part.asked 0x11 tag) hf).trans ((if_pos hs).trans ?_)
    rw [Part.runQueue_inflight (by rw [Part.closing_fx]; exact hi), Part.postRunState, Part.modRun_fx, Part.modRun, Part.asked_modFx,
      Part.asked_post_room (p := s.part.modFx f _) hroom]
    rfl
  · obtain ⟨q, hq', hh⟩ := Part.requestEnd_empty (p := s.part.asked 0x11 tag) hf hs hi hq
    exact ⟨_, q, exec_accepted (c := .endRun tag [BitVec.ofNat 8 f.val]) rfl (show (0x11 : Byte).toNat < 0x70 by decide) hl hq',
      rfl, Part.asked_halted hh, rfl, rfl⟩
  · exact request_refused hl (by decide) (Part.requestAbort_unfitted (p := s.part.asked 0x12 tag) hf)
  · refine request_refused hl (by decide) ((Part.requestAbort_fitted (p := s.part.asked 0x12 tag) hf).trans ?_)
    rw [if_neg, if_neg]
    · rfl
    · rcases hs with h | h <;> simp [h]
    · rcases hs with h | h <;> simp [Run.isOpen, h]
  · refine request_answered hl (by decide) _ ?_ hl.free hl.noRequest hl.noReply
    exact (Part.requestAbort_fitted (p := s.part.asked 0x12 tag) hf).trans
      ((if_neg (by simp [Run.isOpen, hs])).trans (if_pos hs))
  · have hd := (Part.requestAbort_fitted (p := s.part.asked 0x12 tag) hf).trans (if_pos ho)
    rw [Part.haltRequest_open (p := s.part.asked 0x12 tag) ho] at hd
    have hh := Part.enterHalting_halted (p := s.part.asked 0x12 tag) ho .abortRequest
    have hnotices := Part.enterHalting_notices (p := s.part.asked 0x12 tag) ho .abortRequest
    generalize (s.part.asked 0x12 tag).enterHalting f .abortRequest = q at hd hh hnotices
    exact ⟨_, q, exec_accepted (c := .abortRun tag [BitVec.ofNat 8 f.val]) rfl (show (0x12 : Byte).toNat < 0x70 by decide) hl hd,
      rfl, Part.asked_halted hh, rfl, rfl, fun hb hn => hnotices hb (Part.asked_reply _ _ _) hn⟩

end Sys2Proof.Machine
end

section
/-! PROOFS. The head of the queue, and the two requests that let it start: QUEUE_STEPS and READ_RESULTS (section 1.3). -/

namespace Sys2Proof.Machine

open Sys2Proof

/-! ## The head of the queue -/

theorem Step.isMark_of_ne {st : Step} (h : st.body ≠ .mark) : st.isMark = false := by
  rw [← Bool.not_eq_true, isMark_iff]
  exact h

section
variable {grant : Part → Part} {f : FixtureIx} {n : Nat} {p : Part} {st : Step} {rest : List Step}

theorem Part.runQueueWith_mark (ho : (p.fx f).run.isOpen = true) (hi : (p.fx f).inflight = none) (hq : (p.fx f).queue = st :: rest)
    (hm : st.isMark = true) :
    Part.runQueueWith grant f (n + 1) p = Part.runQueueWith grant f n (p.modFx f fun x => { x with queue := rest }) := by
  simp [Part.runQueueWith, ho, hi, hq, hm]

theorem Part.runQueueWith_begin (ho : (p.fx f).run.isOpen = true) (hi : (p.fx f).inflight = none) (hq : (p.fx f).queue = st :: rest)
    (hm : st.isMark = false) (hlog : (p.fx f).log.length < 64) :
    Part.runQueueWith grant f (n + 1) p = Part.runQueueWith grant f n (p.beginStep grant f st rest) := by
  simp [Part.runQueueWith, ho, hi, hq, hm, hlog]

theorem Part.runQueueWith_full (ho : (p.fx f).run.isOpen = true) (hi : (p.fx f).inflight = none) (hq : (p.fx f).queue = st :: rest)
    (hm : st.isMark = false) (hlog : 64 ≤ (p.fx f).log.length) :
    Part.runQueueWith grant f (n + 1) p =
      if (p.fx f).stalled then p else (p.modFx f fun x => { x with stalled := true }).post (.logFull f) := by
  have h : ¬ (p.fx f).log.length < 64 := Nat.not_lt.mpr hlog
  simp [Part.runQueueWith, ho, hi, hq, hm, h]

theorem Part.runQueue_mark (ho : (p.fx f).run.isOpen = true) (hi : (p.fx f).inflight = none) (hq : (p.fx f).queue = st :: rest)
    (hm : st.isMark = true) : p.runQueue f = (p.modFx f fun x => { x with queue := rest }).runQueue f := by
  rw [Part.runQueue, Part.runQueueWith_mark ho hi hq hm, Part.runQueue, Part.modFx_fx, hq]
  rfl

theorem Part.runQueue_begin (ho : (p.fx f).run.isOpen = true) (hi : (p.fx f).inflight = none) (hq : (p.fx f).queue = st :: rest)
    (hm : st.isMark = false) (hlog : (p.fx f).log.length < 64) :
    p.runQueue f = Part.runQueueWith Part.tryGrant f (rest.length + 1) (p.beginStep Part.tryGrant f st rest) := by
  rw [Part.runQueue, Part.runQueueWith_begin ho hi hq hm hlog, hq]
  rfl

end

theorem exec_stepStart {s : State} (hp : s.part.powered = true) (f : FixtureIx) :
    exec (.stepStart f) s = .next (s.withPart (s.part.runQueue f)) := State.event_powered hp fun p => p.runQueue f

/-- Settles O24, by the cases of a round. -/
theorem headOfTheQueueIsExamined : Obligations.HeadOfTheQueueIsExamined := by
  unfold Obligations.HeadOfTheQueueIsExamined
  intro s f hp x
  refine ⟨fun h => ?waits, fun hs _ hq => ?idle, fun hs hi hq => ?closing,
    fun ho hi st rest hq => ⟨fun hm => ?mark, fun hm hlog => ⟨fun hst => ?stalled, fun hst => ?full⟩⟩⟩
  case waits =>
    rw [exec_stepStart hp]
    rcases h with h | h
    · rw [Part.runQueue_closed h]; rfl
    · rw [Part.runQueue_inflight h]; rfl
  case idle => rw [exec_stepStart hp, Part.runQueue_idle hq hs]; rfl
  case closing =>
    refine ⟨_, exec_stepStart hp f, ?_⟩
    rw [Part.runQueue_closing hs hi hq]
    exact Part.enterHalting_halted (Run.isOpen_iff.mpr (.inr hs)) .none
  case mark =>
    rw [exec_stepStart hp, exec_stepStart (s := { s with part := s.part.modFx f fun x => { x with queue := rest } }) hp,
      Part.runQueue_mark ho hi hq ((isMark_iff st).mpr hm)]
    rfl
  case stalled =>
    rw [exec_stepStart hp, Part.runQueue, Part.runQueueWith_full ho hi hq (Step.isMark_of_ne hm) hlog, if_pos hst]
    rfl
  case full =>
    rw [exec_stepStart hp, Part.runQueue, Part.runQueueWith_full ho hi hq (Step.isMark_of_ne hm) hlog,
      if_neg (by rw [show (s.part.fx f).stalled = false from hst]; decide)]

/-! ## READ_RESULTS (R22) -/

theorem Part.ofLength_of_eq {n : Nat} {payload : List Byte} (h : payload.length = n) (g : Part → Answer) (p : Part) :
    Part.ofLength n payload g p = g p := if_pos h

theorem Part.readResults_unfitted {p : Part} {f : FixtureIx} (hf : p.isFitted f = false) (most : Byte) :
    p.readResults [BitVec.ofNat 8 f.val, most] = p.refuse .notFitted := by
  rw [Part.readResults, Part.ofLength_of_eq (n := 2) (payload := [_, _]) rfl, Part.atFixture_unfitted hf (byteAt_fixture f [most])]

/-- The oldest records with their count, and the count of those left. -/
def Fixture.oldest (x : Fixture) (most : Nat) : List Byte :=
  BitVec.ofNat 8 (min most x.log.length) :: (x.log.take most).flatMap Result.encode ++ [BitVec.ofNat 8 (x.log.length - most)]

/-- The oldest records leave the log. -/
def Fixture.unlog (most : Nat) (x : Fixture) : Fixture := { x with log := x.log.drop most }

theorem Part.readResults_fitted {p : Part} {f : FixtureIx} (hf : p.isFitted f = true) (most : Byte) :
    p.readResults [BitVec.ofNat 8 f.val, most] =
      if most.toNat < 1 ∨ 16 < most.toNat then p.refuse .badField
      else if (p.fx f).run.state = .none then p.refuse .wrongState
      else ((p.modFx f (Fixture.unlog most.toNat)).runQueue f).accept ((p.fx f).oldest most.toNat) := by
  have hdata : le8 ((p.fx f).log.take most.toNat).length ++ ((p.fx f).log.take most.toNat).flatMap Result.encode ++
      le8 ((p.fx f).log.drop most.toNat).length = (p.fx f).oldest most.toNat := by
    rw [List.length_take, List.length_drop]
    rfl
  rw [← hdata]
  rw [Part.readResults, Part.ofLength_of_eq (n := 2) (payload := [_, _]) rfl, Part.atFixture_fitted hf (byteAt_fixture f [most])]
  rfl

theorem Part.readResults_taken {p : Part} {f : FixtureIx} (hf : p.isFitted f = true) {most : Byte} (h1 : 1 ≤ most.toNat)
    (h2 : most.toNat ≤ 16) (hs : (p.fx f).run.state ≠ .none) :
    p.readResults [BitVec.ofNat 8 f.val, most] =
      ((p.modFx f (Fixture.unlog most.toNat)).runQueue f).accept ((p.fx f).oldest most.toNat) := by
  rw [Part.readResults_fitted hf, if_neg (by omega), if_neg hs]

/-! ## The bytes of a result record (section 11.4) -/

theorem s32At_leInt32 {v : Int} (h1 : -2147483648 ≤ v) (h2 : v ≤ 2147483647) : s32At (leInt32 v) 0 = v := by
  rw [s32At, leInt32, u32At_le32, BitVec.ofNat_toNat, BitVec.setWidth_eq, BitVec.toInt_ofInt]
  exact Int.bmod_eq_of_le (by omega) (by omega)

@[simp] theorem s32At_append_left {l k : List Byte} {i : Nat} (h : i + 3 < l.length) : s32At (l ++ k) i = s32At l i := by
  rw [s32At, u32At_append_left h, s32At]

@[simp] theorem s32At_append_right {l k : List Byte} {i : Nat} (h : l.length ≤ i) : s32At (l ++ k) i = s32At k (i - l.length) := by
  rw [s32At, u32At_append_right h, s32At]

@[simp] theorem length_leInt32 (v : Int) : (leInt32 v).length = 4 := length_le32 _

theorem Result.presence_bits (r : Result) :
    r.presence < 16 ∧ r.presence.testBit 0 = r.value.isSome ∧ r.presence.testBit 1 = r.unit.isSome ∧
      r.presence.testBit 2 = r.mean16.isSome ∧ r.presence.testBit 3 = r.range.isSome := by
  unfold Result.presence
  generalize r.value.isSome = a, r.unit.isSome = b, r.mean16.isSome = c, r.range.isSome = d
  revert a b c d
  decide

theorem Reason.code_lt (k : Reason) : k.code < 256 := by cases k <;> decide

/-- The head of a record, at offsets 0 to 7. -/
theorem Result.encode_head {r : Result} (hs : r.seq ≤ 65535) :
    u16At r.encode 0 = r.seq ∧ u16At r.encode 2 = r.tag.toNat ∧ byteAt r.encode 4 = r.kind.code ∧
      byteAt r.encode 5 = r.verdict.code ∧ byteAt r.encode 6 = r.reason.code ∧ byteAt r.encode 7 = r.presence := by
  have ht : r.tag.toNat < 65536 := r.tag.isLt
  have hp : r.presence < 256 := by have := r.presence_bits.1; omega
  simp [Result.encode, byteAt_le8_of_lt, u16At_le16_of_lt, Nat.lt_succ_of_le hs, ht, hp, Reason.code_lt]

/-- What a record carries, at offsets 8 to 23: an absent value is 0. -/
theorem Result.encode_values {r : Result} (hm : ∀ m, r.mean16 = some m → m ≤ 65535) (hu : ∀ u, r.unit = some u → u ≤ 255)
    (hv : ∀ v, r.value = some v → -2147483648 ≤ v ∧ v ≤ 2147483647) :
    s32At r.encode 8 = r.value.getD 0 ∧ byteAt r.encode 12 = r.unit.getD 0 ∧
      byteAt r.encode 13 = (r.range.map Range.code).getD 0 ∧ u16At r.encode 14 = r.mean16.getD 0 ∧
      u32At r.encode 16 = r.elapsed.toNat ∧ u32At r.encode 20 = r.endTime.toNat := by
  have hm' : r.mean16.getD 0 < 65536 := by
    cases h : r.mean16 with
    | none => decide
    | some m => exact Nat.lt_succ_of_le (hm m h)
  have hu' : r.unit.getD 0 < 256 := by
    cases h : r.unit with
    | none => decide
    | some u => exact Nat.lt_succ_of_le (hu u h)
  have hr : (r.range.map Range.code).getD 0 < 256 := by
    cases r.range with
    | none => decide
    | some g => cases g <;> decide
  have hv' : -2147483648 ≤ r.value.getD 0 ∧ r.value.getD 0 ≤ 2147483647 := by
    cases h : r.value with
    | none => decide
    | some v => exact hv v h
  have hvalue := s32At_leInt32 hv'.1 hv'.2
  simp [Result.encode, byteAt_le8_of_lt, u16At_le16_of_lt, hm', hu', hr, hvalue]

/-- Settles O23: the removal precedes the examination of the head. -/
theorem readResultsTakesTheOldest : Obligations.ReadResultsTakesTheOldest := by
  unfold Obligations.ReadResultsTakesTheOldest
  refine ⟨fun s tag f most hl => ⟨fun hf => ?unfitted, fun hf hm => ?badMost, fun hf h1 h2 hs => ?noRun,
    fun hf h1 h2 hs hw => ?waits, fun hf h1 h2 hs => ?starts⟩, fun r hs hm hu hv => ?bytes⟩
  case unfitted =>
    exact request_refused hl (by decide) (Part.readResults_unfitted (p := s.part.asked 0x16 tag) hf most)
  case badMost =>
    exact request_refused hl (by decide) ((Part.readResults_fitted (p := s.part.asked 0x16 tag) hf most).trans (if_pos hm))
  case noRun =>
    exact request_refused hl (by decide) ((Part.readResults_fitted (p := s.part.asked 0x16 tag) hf most).trans
      ((if_neg (by omega)).trans (if_pos hs)))
  case waits =>
    have hq : ((s.part.asked 0x16 tag).modFx f (Fixture.unlog most.toNat)).runQueue f =
        (s.part.asked 0x16 tag).modFx f (Fixture.unlog most.toNat) := by
      rcases hw with h | h | ⟨ha, hq⟩
      · exact Part.runQueue_closed (by rw [Part.modFx_fx]; exact h)
      · exact Part.runQueue_inflight (by rw [Part.modFx_fx]; exact h)
      · exact Part.runQueue_idle (by rw [Part.modFx_fx]; exact hq) (by rw [Part.modFx_fx]; exact ha)
    refine request_answered hl (by decide) (s.part.modFx f (Fixture.unlog most.toNat)) ?_ hl.free hl.noRequest hl.noReply
    exact (Part.readResults_taken (p := s.part.asked 0x16 tag) hf h1 h2 hs).trans (congrArg (Part.accept · _) hq)
  case starts =>
    refine ⟨_, exec_stepStart (s := s.withPart ((s.part.modFx f (Fixture.unlog most.toNat)).asked 0x16 tag)) hl.powered f, ?_⟩
    exact exec_accepted (c := .readResults tag [BitVec.ofNat 8 f.val, most]) rfl (show (0x16 : Byte).toNat < 0x70 by decide) hl
      (Part.readResults_taken (p := s.part.asked 0x16 tag) hf h1 h2 hs)
  case bytes =>
    obtain ⟨hseq, htag, hkind, hverdict, hreason, hpresence⟩ := Result.encode_head hs
    obtain ⟨hlt, h0, h1, h2, h3⟩ := r.presence_bits
    rw [hpresence]
    exact ⟨by simp [Result.encode], hseq, htag, hkind, hverdict, hreason, h0, h1, h2, h3, hlt, Result.encode_values hm hu hv⟩

end Sys2Proof.Machine
end

section
/-! PROOFS. QUEUE_STEPS: what each step slot says, and the steps that join the queue (sections 1.3 and 11.2). -/

namespace Sys2Proof.Machine

open Sys2Proof

theorem le_maxMs_iff {n : Nat} : n ≤ maxMs ↔ n ≤ 600000 := Iff.rfl

/-! ## Conditions of a WAIT_FOR slot (R34) -/

section
variable {p : List Byte} {k : Condition}

theorem parseCondition_channelEnd (h : byteAt p 3 = 1) :
    parseCondition p = some k ↔ ∃ c : Fin 32, byteAt p 4 = c.val ∧ .channelEnd c = k := by
  simp only [parseCondition, h, Option.map_eq_some_iff, finOf_eq_some]

theorem parseCondition_supplyOn (h : byteAt p 3 = 2) : parseCondition p = some k ↔ .supplyOn = k := by
  simp only [parseCondition, h, Option.some_inj]

theorem parseCondition_line (h : byteAt p 3 = 3) :
    parseCondition p = some k ↔ ∃ l : Fin 8, byteAt p 4 = l.val ∧ ∃ v : Bool, byteAt p 5 = flagNat v ∧ .line l v = k := by
  simp only [parseCondition, h, Option.bind_eq_bind, Option.bind_eq_some_iff, Option.pure_def, Option.some_inj, finOf_eq_some,
    boolOf_eq_some_iff]

theorem parseCondition_frame (h : byteAt p 3 = 4) :
    parseCondition p = some k ↔ ∃ e : Fin 8, byteAt p 4 = e.val ∧ .frame e = k := by
  simp only [parseCondition, h, Option.map_eq_some_iff, finOf_eq_some]

theorem parseCondition_quiescent (h : byteAt p 3 = 5) :
    parseCondition p = some k ↔
      (1 ≤ u16At p 6 ∧ u16At p 6 ≤ 10000) ∧ u32At p 8 ≤ 600000 ∧ .quiescent (u16At p 6) (u32At p 8) = k := by
  simp only [parseCondition, h, Option.bind_eq_bind, Option.bind_eq_some_iff, Option.pure_def, Option.some_inj, need_eq_some_iff,
    exists_const, Bool.and_eq_true, decide_eq_true_eq, le_maxMs_iff]

theorem parseCondition_other (h : byteAt p 3 = 0 ∨ 5 < byteAt p 3) : parseCondition p = none := by
  unfold parseCondition
  split <;> try omega
  rfl

end

/-! ## Step slots (R25, R28, R33, R43, R49) -/

section
variable {p : List Byte} {b : StepBody}

theorem parseStepBody_set (h : byteAt p 2 = 1) :
    parseStepBody p = some b ↔ recordOk ((p.drop 4).take 16) = true ∧ .set ((p.drop 4).take 16) = b := by
  simp only [parseStepBody, h, Option.bind_eq_bind, Option.bind_eq_some_iff, Option.pure_def, Option.some_inj, need_eq_some_iff,
    exists_const]

theorem parseStepBody_start (h : byteAt p 2 = 2) :
    parseStepBody p = some b ↔ ∃ c : Fin 32, byteAt p 3 = c.val ∧ .start c = b := by
  simp only [parseStepBody, h, Option.map_eq_some_iff, finOf_eq_some]

theorem parseStepBody_stop (h : byteAt p 2 = 3) :
    parseStepBody p = some b ↔ ∃ c : Fin 32, byteAt p 3 = c.val ∧ .stop c = b := by
  simp only [parseStepBody, h, Option.map_eq_some_iff, finOf_eq_some]

theorem parseStepBody_wait (h : byteAt p 2 = 4) :
    parseStepBody p = some b ↔ u32At p 4 ≤ 600000 ∧ .wait (u32At p 4) = b := by
  simp only [parseStepBody, h, Option.bind_eq_bind, Option.bind_eq_some_iff, Option.pure_def, Option.some_inj, need_eq_some_iff,
    exists_const, decide_eq_true_eq, le_maxMs_iff]

theorem parseStepBody_waitFor (h : byteAt p 2 = 5) :
    parseStepBody p = some b ↔ ∃ k, parseCondition p = some k ∧ u32At p 12 ≤ 600000 ∧ .waitFor k (u32At p 12) = b := by
  simp only [parseStepBody, h, Option.bind_eq_bind, Option.bind_eq_some_iff, Option.pure_def, Option.some_inj, need_eq_some_iff,
    exists_const, decide_eq_true_eq, le_maxMs_iff]

/-- The limits that a MEASURE slot carries. -/
def slotLimits (p : List Byte) : Option Int × Option Int :=
  (if (byteAt p 5).testBit 0 then some (s32At p 8) else none, if (byteAt p 5).testBit 1 then some (s32At p 12) else none)

theorem parseStepBody_measure (h : byteAt p 2 = 6) :
    parseStepBody p = some b ↔ ∃ n : Fin 128, byteAt p 3 = n.val ∧ byteAt p 4 ∈ [0, 1, 2, 4, 8, 16, 32, 64] ∧
      (∀ l u, slotLimits p = (some l, some u) → l ≤ u) ∧ 0 ≤ s32At p 16 ∧ u32At p 20 ≤ 600000 ∧
      .measure n (byteAt p 4) (slotLimits p).1 (slotLimits p).2 (s32At p 16).toNat (u32At p 20) = b := by
  have h0 : (byteAt p 5).testBit 0 = decide (byteAt p 5 % 2 = 1) := Nat.testBit_zero _
  have h1 : (byteAt p 5).testBit 1 = decide (byteAt p 5 / 2 % 2 = 1) := by rw [Nat.testBit_succ, Nat.testBit_zero]
  simp only [parseStepBody, h, parseMeasure, Option.bind_eq_bind, Option.bind_eq_some_iff, Option.pure_def, Option.some_inj,
    need_eq_some_iff, exists_const, finOf_eq_some, decide_eq_true_eq, le_maxMs_iff, List.contains_iff_mem, slotLimits, h0, h1]
  by_cases hl : byteAt p 5 % 2 = 1 <;> by_cases hu : byteAt p 5 / 2 % 2 = 1 <;> simp [hl, hu]

theorem parseStepBody_prompt (h : byteAt p 2 = 7) :
    parseStepBody p = some b ↔ ∃ kind : PromptKind, byteAt p 3 = kind.code ∧ byteAt p 4 ≤ 40 ∧ u32At p 8 ≤ 600000 ∧
      (∀ c ∈ (p.drop 12).take (byteAt p 4), 0x20 ≤ c.toNat ∧ c.toNat ≤ 0x7E) ∧
      .prompt kind (u32At p 8) ((p.drop 12).take (byteAt p 4)) = b := by
  have kinds : ∀ q : PromptKind → Prop, (∃ kind, q kind) ↔ q .confirm ∨ q .ack := fun q =>
    ⟨fun ⟨kind, hk⟩ => by cases kind <;> simp [hk], fun hk => hk.elim (⟨_, ·⟩) (⟨_, ·⟩)⟩
  simp only [parseStepBody, h, parsePrompt, Option.bind_eq_bind, Option.pure_def, kinds, PromptKind.code]
  by_cases h1 : byteAt p 3 = 1
  · simp [h1, Option.bind_eq_some_iff, need_eq_some_iff, le_maxMs_iff]
  · by_cases h2 : byteAt p 3 = 2
    · simp [h2, Option.bind_eq_some_iff, need_eq_some_iff, le_maxMs_iff]
    · simp [h1, h2]

theorem parseStepBody_mark (h : byteAt p 2 = 8) : parseStepBody p = some b ↔ .mark = b := by
  simp only [parseStepBody, h, Option.some_inj]

theorem parseStepBody_other (h : byteAt p 2 = 0 ∨ 8 < byteAt p 2) : parseStepBody p = none := by
  unfold parseStepBody
  split <;> try omega
  rfl

theorem parseStep_eq_none : parseStep p = none ↔ ¬ ∃ b, parseStepBody p = some b := by
  rw [parseStep, Option.map_eq_none_iff, Option.eq_none_iff_forall_ne_some, not_exists]

theorem parseStep_some {st : Step} (h : parseStep p = some st) : parseStepBody p = some st.body ∧ st.tag.toNat = u16At p 0 := by
  obtain ⟨b, hb, rfl⟩ := Option.map_eq_some_iff.mp h
  have hlt : u16At p 0 < 2 ^ 16 := by
    have h0 : byteAt p 0 < 256 := (p.getD 0 0).isLt
    have h1 : byteAt p (0 + 1) < 256 := (p.getD (0 + 1) 0).isLt
    unfold u16At
    omega
  exact ⟨hb, (BitVec.toNat_ofNat _ _).trans (Nat.mod_eq_of_lt hlt)⟩

theorem exists_fin_val_iff {n k : Nat} : (∃ c : Fin n, k = c.val) ↔ k < n :=
  ⟨fun ⟨c, h⟩ => h ▸ c.isLt, fun h => ⟨⟨k, h⟩, rfl⟩⟩

/-- What a condition must hold for check 4. -/
def ConditionTakes (slot : List Byte) : Prop :=
  match byteAt slot 3 with
  | 1 => byteAt slot 4 ≤ 31
  | 2 => True
  | 3 => byteAt slot 4 ≤ 7 ∧ byteAt slot 5 ≤ 1
  | 4 => byteAt slot 4 ≤ 7
  | 5 => 1 ≤ u16At slot 6 ∧ u16At slot 6 ≤ 10000 ∧ u32At slot 8 ≤ 600000
  | _ => False

theorem exists_parseCondition_iff (slot : List Byte) : (∃ k, parseCondition slot = some k) ↔ ConditionTakes slot := by
  unfold ConditionTakes
  split
  case h_1 h => simp [parseCondition_channelEnd h, exists_comm, exists_fin_val_iff, Nat.lt_succ_iff]
  case h_2 h => simp [parseCondition_supplyOn h]
  case h_3 h =>
    have flags : (∃ v, byteAt slot 5 = flagNat v) ↔ byteAt slot 5 ≤ 1 := by
      rw [← exists_boolOf_eq_some_iff]
      simp only [boolOf_eq_some_iff]
    have : (∃ k, parseCondition slot = some k) ↔ (∃ l : Fin 8, byteAt slot 4 = l.val) ∧ ∃ v, byteAt slot 5 = flagNat v := by
      simp only [parseCondition_line h]
      exact ⟨fun ⟨_, l, hl, v, hv, _⟩ => ⟨⟨l, hl⟩, v, hv⟩, fun ⟨⟨l, hl⟩, v, hv⟩ => ⟨_, l, hl, v, hv, rfl⟩⟩
    rw [this, exists_fin_val_iff, flags, Nat.lt_succ_iff]
  case h_4 h => simp [parseCondition_frame h, exists_comm, exists_fin_val_iff, Nat.lt_succ_iff]
  case h_5 h => simp [parseCondition_quiescent h, and_assoc]
  case h_6 h1 h2 h3 h4 h5 =>
    simp only [imp_false] at h1 h2 h3 h4 h5
    have h : byteAt slot 3 = 0 ∨ 5 < byteAt slot 3 := by omega
    simp [parseCondition_other h]

/-- What a slot must hold for check 4. -/
def SlotTakes (slot : List Byte) : Prop :=
  match byteAt slot 2 with
  | 1 => recordOk ((slot.drop 4).take 16) = true
  | 2 => byteAt slot 3 ≤ 31
  | 3 => byteAt slot 3 ≤ 31
  | 4 => u32At slot 4 ≤ 600000
  | 5 => u32At slot 12 ≤ 600000 ∧ ConditionTakes slot
  | 6 => byteAt slot 3 ≤ 127 ∧ byteAt slot 4 ∈ [0, 1, 2, 4, 8, 16, 32, 64] ∧ 0 ≤ s32At slot 16 ∧ u32At slot 20 ≤ 600000 ∧
      ∀ l u, slotLimits slot = (some l, some u) → l ≤ u
  | 7 => 1 ≤ byteAt slot 3 ∧ byteAt slot 3 ≤ 2 ∧ byteAt slot 4 ≤ 40 ∧ u32At slot 8 ≤ 600000 ∧
      ∀ c ∈ (slot.drop 12).take (byteAt slot 4), 0x20 ≤ c.toNat ∧ c.toNat ≤ 0x7E
  | 8 => True
  | _ => False

theorem exists_parseStepBody_iff (slot : List Byte) : (∃ b, parseStepBody slot = some b) ↔ SlotTakes slot := by
  unfold SlotTakes
  split
  case h_1 h => simp only [parseStepBody_set h, exists_and_left, exists_eq', and_true]
  case h_2 h => simp [parseStepBody_start h, exists_comm, exists_fin_val_iff, Nat.lt_succ_iff]
  case h_3 h => simp [parseStepBody_stop h, exists_comm, exists_fin_val_iff, Nat.lt_succ_iff]
  case h_4 h => simp only [parseStepBody_wait h, exists_and_left, exists_eq', and_true]
  case h_5 h =>
    rw [← exists_parseCondition_iff]
    simp only [parseStepBody_waitFor h]
    exact ⟨fun ⟨_, k, hk, ht, _⟩ => ⟨ht, k, hk⟩, fun ⟨ht, k, hk⟩ => ⟨_, k, hk, ht, rfl⟩⟩
  case h_6 h =>
    rw [← Nat.lt_succ_iff, ← exists_fin_val_iff]
    simp only [parseStepBody_measure h]
    exact ⟨fun ⟨_, n, hn, hk, hl, hg, ht, _⟩ => ⟨⟨n, hn⟩, hk, hg, ht, hl⟩,
      fun ⟨⟨n, hn⟩, hk, hg, ht, hl⟩ => ⟨_, n, hn, hk, hl, hg, ht, rfl⟩⟩
  case h_7 h =>
    have kinds : (∃ kind : PromptKind, byteAt slot 3 = kind.code) ↔ 1 ≤ byteAt slot 3 ∧ byteAt slot 3 ≤ 2 :=
      ⟨fun ⟨kind, hk⟩ => by cases kind <;> rw [hk] <;> decide, fun ⟨h1, h2⟩ => by
        rcases Nat.lt_or_eq_of_le h2 with h3 | h3
        · exact ⟨.confirm, Nat.le_antisymm (Nat.le_of_lt_succ h3) h1⟩
        · exact ⟨.ack, h3⟩⟩
    rw [← and_assoc, ← kinds]
    simp only [parseStepBody_prompt h]
    exact ⟨fun ⟨_, kind, hk, hl, ht, hc, _⟩ => ⟨⟨kind, hk⟩, hl, ht, hc⟩,
      fun ⟨⟨kind, hk⟩, hl, ht, hc⟩ => ⟨_, kind, hk, hl, ht, hc, rfl⟩⟩
  case h_8 h => simp [parseStepBody_mark h]
  case h_9 h1 h2 h3 h4 h5 h6 h7 h8 =>
    simp only [imp_false] at h1 h2 h3 h4 h5 h6 h7 h8
    have h : byteAt slot 2 = 0 ∨ 8 < byteAt slot 2 := by omega
    simp [parseStepBody_other h]

/-- What a condition says of its slot. -/
def ConditionSays (slot : List Byte) : Condition → Prop
  | .channelEnd c => byteAt slot 3 = 1 ∧ c.val = byteAt slot 4
  | .supplyOn => byteAt slot 3 = 2
  | .line l level => byteAt slot 3 = 3 ∧ l.val = byteAt slot 4 ∧ flagNat level = byteAt slot 5
  | .frame e => byteAt slot 3 = 4 ∧ e.val = byteAt slot 4
  | .quiescent threshold hold => byteAt slot 3 = 5 ∧ threshold = u16At slot 6 ∧ hold = u32At slot 8

theorem parseCondition_says {slot : List Byte} {k : Condition} (h : parseCondition slot = some k) : ConditionSays slot k := by
  have hcode : 1 ≤ byteAt slot 3 ∧ byteAt slot 3 ≤ 5 := by
    by_contra hn
    rw [parseCondition_other (by omega)] at h
    cases h
  obtain hc | hc | hc | hc | hc :
      byteAt slot 3 = 1 ∨ byteAt slot 3 = 2 ∨ byteAt slot 3 = 3 ∨ byteAt slot 3 = 4 ∨ byteAt slot 3 = 5 := by
    omega
  · obtain ⟨c, hv, rfl⟩ := (parseCondition_channelEnd hc).mp h
    exact ⟨hc, hv.symm⟩
  · obtain rfl := (parseCondition_supplyOn hc).mp h
    exact hc
  · obtain ⟨l, hv, v, hv', rfl⟩ := (parseCondition_line hc).mp h
    exact ⟨hc, hv.symm, hv'.symm⟩
  · obtain ⟨e, hv, rfl⟩ := (parseCondition_frame hc).mp h
    exact ⟨hc, hv.symm⟩
  · obtain ⟨_, _, rfl⟩ := (parseCondition_quiescent hc).mp h
    exact ⟨hc, rfl, rfl⟩

/-- What a step says of its slot. -/
def StepSays (slot : List Byte) : StepBody → Prop
  | .set r => r = (slot.drop 4).take 16
  | .start c => c.val = byteAt slot 3
  | .stop c => c.val = byteAt slot 3
  | .wait t => t = u32At slot 4
  | .waitFor cond t => t = u32At slot 12 ∧ ConditionSays slot cond
  | .measure n k lo hi g t => n.val = byteAt slot 3 ∧ k = byteAt slot 4 ∧ (lo, hi) = slotLimits slot ∧ (g : Int) = s32At slot 16 ∧
      t = u32At slot 20
  | .prompt kind t text => kind.code = byteAt slot 3 ∧ t = u32At slot 8 ∧ text = (slot.drop 12).take (byteAt slot 4)
  | .mark => True

theorem parseStepBody_says {slot : List Byte} {b : StepBody} (h : parseStepBody slot = some b) :
    b.kind.code = byteAt slot 2 ∧ StepSays slot b := by
  have hcode : 1 ≤ byteAt slot 2 ∧ byteAt slot 2 ≤ 8 := by
    by_contra hn
    rw [parseStepBody_other (by omega)] at h
    cases h
  obtain hk | hk | hk | hk | hk | hk | hk | hk : byteAt slot 2 = 1 ∨ byteAt slot 2 = 2 ∨ byteAt slot 2 = 3 ∨ byteAt slot 2 = 4 ∨
      byteAt slot 2 = 5 ∨ byteAt slot 2 = 6 ∨ byteAt slot 2 = 7 ∨ byteAt slot 2 = 8 := by omega
  · obtain ⟨_, rfl⟩ := (parseStepBody_set hk).mp h
    exact ⟨hk.symm, rfl⟩
  · obtain ⟨c, hc, rfl⟩ := (parseStepBody_start hk).mp h
    exact ⟨hk.symm, hc.symm⟩
  · obtain ⟨c, hc, rfl⟩ := (parseStepBody_stop hk).mp h
    exact ⟨hk.symm, hc.symm⟩
  · obtain ⟨_, rfl⟩ := (parseStepBody_wait hk).mp h
    exact ⟨hk.symm, rfl⟩
  · obtain ⟨k, hc, _, rfl⟩ := (parseStepBody_waitFor hk).mp h
    exact ⟨hk.symm, rfl, parseCondition_says hc⟩
  · obtain ⟨n, hn, _, _, hg, _, rfl⟩ := (parseStepBody_measure hk).mp h
    exact ⟨hk.symm, hn.symm, rfl, rfl, Int.toNat_of_nonneg hg, rfl⟩
  · obtain ⟨kind, hc, _, _, _, rfl⟩ := (parseStepBody_prompt hk).mp h
    exact ⟨hk.symm, hc.symm, rfl, rfl⟩
  · obtain rfl := (parseStepBody_mark hk).mp h
    exact ⟨hk.symm, trivial⟩

end

/-! ## The steps that join the queue (R17, R18) -/

theorem notMark_eq : (fun st : Step => !st.isMark) = fun st => decide (st.body ≠ .mark) := by
  funext st
  rw [Bool.eq_iff_iff]
  simp [← isMark_iff]

/-- The steps that skipping leaves. -/
def keptSteps (skipping : Bool) (steps : List Step) : List Step :=
  if skipping then (steps.dropWhile fun st => st.body ≠ .mark).drop 1 else steps

theorem absorb_eq (skipping : Bool) (steps : List Step) :
    absorb skipping steps = (keptSteps skipping steps, skipping && steps.all fun st => st.body ≠ .mark) := by
  cases skipping
  · rfl
  unfold absorb keptSteps
  rw [if_pos rfl, if_pos rfl, Bool.true_and, ← notMark_eq, List.drop_one]
  cases h : steps.any Step.isMark with
  | true => simp only [if_true, Prod.mk.injEq, true_and]; rw [← List.not_any_eq_all_not, h]; rfl
  | false =>
    have hall : ∀ st ∈ steps, (!st.isMark) = true := by simpa using h
    have hd : steps.dropWhile (fun st => !st.isMark) = [] := List.dropWhile_eq_nil_iff.mpr hall
    rw [hd, if_neg (by decide), List.all_eq_true.mpr hall]
    rfl

/-- The steps join the queue and the skipped ones are counted. -/
theorem Fixture.addSteps_eq (x : Fixture) (steps : List Step) :
    x.addSteps steps = { x with
      queue := x.queue ++ keptSteps x.run.skipping steps
      run := { x.run with
        skipping := x.run.skipping && steps.all fun st => st.body ≠ .mark
        skipped := min 65535 (x.run.skipped + (steps.length - (keptSteps x.run.skipping steps).length)) } } := by
  rw [Fixture.addSteps, absorb_eq]
  rfl

/-- A QUEUE_STEPS reply: the steps that joined, those skipped and the places left. -/
def queuedBytes (kept skipped used : Nat) : List Byte := [BitVec.ofNat 8 kept, BitVec.ofNat 8 skipped, BitVec.ofNat 8 (32 - used)]

section
variable {p : Part} {f : FixtureIx} {payload : List Byte}

theorem Part.queueSteps_unfitted (h2 : 2 ≤ payload.length) (hf : ∀ f : FixtureIx, byteAt payload 0 = f.val → p.isFitted f = false) :
    p.queueSteps payload = p.refuse .notFitted := by
  rw [Part.queueSteps, if_neg (by omega), Part.atFixture_none hf]

theorem Part.queueSteps_fitted (h2 : 2 ≤ payload.length) (h0 : byteAt payload 0 = f.val) (hf : p.isFitted f = true) :
    p.queueSteps payload =
      if (p.fx f).run.state ≠ .active then p.refuse .wrongState
      else if byteAt payload 1 < 1 ∨ 16 < byteAt payload 1 ∨ payload.length ≠ 2 + 52 * byteAt payload 1 then p.refuse .badLength
      else p.queueParsed f (pieces 52 (byteAt payload 1) (payload.drop 2)) := by
  rw [Part.queueSteps, if_neg (by omega), Part.atFixture_fitted hf h0]

theorem Part.queueSteps_parsed (h2 : 2 ≤ payload.length) (h0 : byteAt payload 0 = f.val) (hf : p.isFitted f = true)
    (hs : (p.fx f).run.state = .active) (h1 : 1 ≤ byteAt payload 1) (h16 : byteAt payload 1 ≤ 16)
    (hn : payload.length = 2 + 52 * byteAt payload 1) :
    p.queueSteps payload = p.queueParsed f (pieces 52 (byteAt payload 1) (payload.drop 2)) := by
  rw [Part.queueSteps_fitted h2 h0 hf, if_neg (not_not.mpr hs), if_neg (by omega)]

theorem Part.queueParsed_error {slots : List (List Byte)} {k : Nat} (h : parseAll parseStep 0 slots = .error k) :
    p.queueParsed f slots = p.refuse .badField [BitVec.ofNat 8 k] := by
  rw [Part.queueParsed, h]
  rfl

theorem Part.queueParsed_ok {slots : List (List Byte)} {steps : List Step} (h : parseAll parseStep 0 slots = .ok steps) :
    p.queueParsed f slots =
      if 32 - (p.fx f).queue.length < (keptSteps (p.fx f).run.skipping steps).length then
        p.refuse .queueFull [BitVec.ofNat 8 (32 - (p.fx f).queue.length)]
      else ((p.modFx f fun x => x.addSteps steps).runQueue f).accept
        (queuedBytes (keptSteps (p.fx f).run.skipping steps).length
          (steps.length - (keptSteps (p.fx f).run.skipping steps).length)
          (((p.modFx f fun x => x.addSteps steps).runQueue f).fx f).queue.length) := by
  rw [Part.queueParsed, h]
  dsimp only
  rw [absorb_eq]
  rfl

end

/-- A fixture whose queue steps join, with the steps that skipping leaves given. -/
def Fixture.joined (kept steps : List Step) (x : Fixture) : Fixture :=
  { x with queue := x.queue ++ kept
           run := { x.run with
             skipping := x.run.skipping && steps.all fun st => st.body ≠ .mark
             skipped := min 65535 (x.run.skipped + (steps.length - kept.length)) } }

theorem Part.queueSteps_joined {p : Part} {f : FixtureIx} {payload : List Byte} {steps : List Step} (h2 : 2 ≤ payload.length)
    (h0 : byteAt payload 0 = f.val) (hf : p.isFitted f = true) (hs : (p.fx f).run.state = .active) (h1 : 1 ≤ byteAt payload 1)
    (h16 : byteAt payload 1 ≤ 16) (hn : payload.length = 2 + 52 * byteAt payload 1)
    (hok : parseAll parseStep 0 (pieces 52 (byteAt payload 1) (payload.drop 2)) = .ok steps)
    (hroom : (keptSteps (p.fx f).run.skipping steps).length ≤ 32 - (p.fx f).queue.length) :
    p.queueSteps payload =
      ((p.modFx f (Fixture.joined (keptSteps (p.fx f).run.skipping steps) steps)).runQueue f).accept
        (queuedBytes (keptSteps (p.fx f).run.skipping steps).length
          (steps.length - (keptSteps (p.fx f).run.skipping steps).length)
          (((p.modFx f (Fixture.joined (keptSteps (p.fx f).run.skipping steps) steps)).runQueue f).fx f).queue.length) := by
  rw [Part.queueSteps_parsed h2 h0 hf hs h1 h16 hn, Part.queueParsed_ok hok, if_neg (by omega),
    Part.modFx_congr (h := Fixture.joined (keptSteps (p.fx f).run.skipping steps) steps) (Fixture.addSteps_eq _ steps)]

/-- Settles O22: the request by its checks in order, each slot by its kind. -/
theorem queueStepsChecksAndAppends : Obligations.QueueStepsChecksAndAppends := by
  unfold Obligations.QueueStepsChecksAndAppends
  intro s tag payload hl answer count
  refine ⟨fun h2 hf => ?unfitted, fun h2 f h0 hf => ⟨fun hs => ?wrongState, fun hs hn => ?badLength,
    fun hs h1 h16 hn => ⟨fun k hk => ?badSlot,
      fun steps hok => ⟨fun hfull => ?full, fun hroom => ⟨fun hi => ?waits, ?starts⟩⟩⟩⟩,
    fun slot => ?slots⟩
  case unfitted => exact request_refused hl (by decide) (Part.queueSteps_unfitted (p := s.part.asked 0x15 tag) h2 hf)
  case wrongState =>
    exact request_refused hl (by decide) ((Part.queueSteps_fitted (p := s.part.asked 0x15 tag) h2 h0 hf).trans (if_pos hs))
  case badLength =>
    exact request_refused hl (by decide) ((Part.queueSteps_fitted (p := s.part.asked 0x15 tag) h2 h0 hf).trans
      ((if_neg (not_not.mpr hs)).trans (if_pos hn)))
  case badSlot =>
    exact request_refused hl (by decide) ((Part.queueSteps_parsed (p := s.part.asked 0x15 tag) h2 h0 hf hs h1 h16 hn).trans
      (Part.queueParsed_error hk))
  case full =>
    exact request_refused hl (by decide) ((Part.queueSteps_parsed (p := s.part.asked 0x15 tag) h2 h0 hf hs h1 h16 hn).trans
      ((Part.queueParsed_ok hok).trans (if_pos hfull)))
  case waits =>
    have hd := Part.queueSteps_joined (p := s.part.asked 0x15 tag) h2 h0 hf hs h1 h16 hn hok hroom
    rw [Part.runQueue_inflight (by rw [Part.modFx_fx]; exact hi), Part.modFx_fx, Fixture.joined, List.length_append] at hd
    exact request_answered hl (by decide) (s.part.modFx f _) hd hl.free hl.noRequest hl.noReply
  case starts =>
    have hd := Part.queueSteps_joined (p := s.part.asked 0x15 tag) h2 h0 hf hs h1 h16 hn hok hroom
    exact ⟨_, exec_stepStart (s := s.withPart ((s.part.modFx f (Fixture.joined _ steps)).asked 0x15 tag)) hl.powered f,
      exec_accepted (c := .queueSteps tag payload) rfl (show (0x15 : Byte).toNat < 0x70 by decide) hl hd⟩
  case slots =>
    refine ⟨parseStep_eq_none.trans (not_congr (exists_parseStepBody_iff slot)), fun st hst => ?_⟩
    obtain ⟨hb, ht⟩ := parseStep_some hst
    obtain ⟨hk, hsays⟩ := parseStepBody_says hb
    refine ⟨ht, hk, ?_⟩
    cases hbody : st.body <;> rw [hbody] at hsays <;> exact hsays

end Sys2Proof.Machine
end

section
/-! PROOFS. Steps that start and wait, and steps that end at their start (chapter 2). -/

namespace Sys2Proof.Machine

open Sys2Proof

/-! ## Steps that start and wait -/

/-- A step has left the queue and is in flight. -/
def Part.started (f : FixtureIx) (st : Step) (rest : List Step) (g : Progress) (p : Part) : Part :=
  p.modFx f fun x =>
    { x with queue := rest, stalled := false, inflight := some { step := st, startedAt := p.clock, progress := g } }

theorem Part.modCon_congr {p : Part} {k : ConsoleId} {g h : Console → Console} (e : g (p.con k) = h (p.con k)) :
    p.modCon k g = p.modCon k h := by
  cases k
  · exact congrArg (fun c => { p with consoleA := c }) e
  · exact congrArg (fun c => { p with consoleB := c }) e

section
variable {p : Part} {f : FixtureIx} {st : Step} {rest : List Step}

theorem Part.setProgress_takeHead (p : Part) (f : FixtureIx) (st : Step) (rest : List Step) (g : Progress) :
    (p.takeHead f st rest).setProgress f g = p.started f st rest g := Part.modFx_modFx p f _ _

/-- The round of a head that starts and stays in flight is the last. -/
theorem Part.runQueue_waits (ho : (p.fx f).run.isOpen = true) (hi : (p.fx f).inflight = none) (hq : (p.fx f).queue = st :: rest)
    (hm : st.isMark = false) (hlog : (p.fx f).log.length < 64) {q : Part} (hb : p.beginStep Part.tryGrant f st rest = q)
    (hw : (q.fx f).inflight.isSome = true) : p.runQueue f = q := by
  rw [Part.runQueue_begin ho hi hq hm hlog, hb, Part.runQueueWith_inflight hw]

theorem Part.beginStep_set {r : List Byte} (hb : st.body = .set r) :
    p.beginStep Part.tryGrant f st rest = (p.takeHead f st rest).tryGrant := by rw [Part.beginStep, hb]

theorem Part.beginStep_wait {ms : Nat} (hb : st.body = .wait ms) :
    p.beginStep Part.tryGrant f st rest = if ms = 0 then (p.takeHead f st rest).closeStep f .passed else p.takeHead f st rest := by
  rw [Part.beginStep, hb]

theorem Part.beginStep_waitFor {k : Condition} {ms : Nat} (hb : st.body = .waitFor k ms) :
    p.beginStep Part.tryGrant f st rest = (p.takeHead f st rest).beginWaitFor f k := by rw [Part.beginStep, hb]

theorem Part.beginStep_measure {n : ProbeIx} {k : Nat} {lo hi : Option Int} {g ms : Nat} (hb : st.body = .measure n k lo hi g ms) :
    p.beginStep Part.tryGrant f st rest = (p.takeHead f st rest).beginMeasure f n k := by rw [Part.beginStep, hb]

theorem Part.beginStep_prompt {kind : PromptKind} {ms : Nat} {text : List Byte} (hb : st.body = .prompt kind ms text) :
    p.beginStep Part.tryGrant f st rest = (p.takeHead f st rest).beginPrompt f kind st.tag text := by rw [Part.beginStep, hb]

theorem Part.beginStep_start {c : ChannelIx} (hb : st.body = .start c) :
    p.beginStep Part.tryGrant f st rest = ((p.takeHead f st rest).beginStart f c).tryGrant := by rw [Part.beginStep, hb]

theorem Part.beginStep_stop {c : ChannelIx} (hb : st.body = .stop c) :
    p.beginStep Part.tryGrant f st rest = (p.takeHead f st rest).beginStop f c := by rw [Part.beginStep, hb]

/-- A fixture after its head has been taken. -/
theorem Part.takeHead_fx (p : Part) (f : FixtureIx) (st : Step) (rest : List Step) :
    (p.takeHead f st rest).fx f =
      { p.fx f with queue := rest, stalled := false, inflight := some { step := st, startedAt := p.clock, progress := .plain } } :=
  Part.modFx_fx p f _

end

section
variable {p : Part} {f : FixtureIx} {n : ProbeIx} {k : Nat} {pr : Probe}

theorem Part.beginMeasure_undefined (h : ∀ pr, p.probe n = some pr → pr.fixture ≠ f) :
    p.beginMeasure f n k = p.closeStep f (.incomplete .undefinedProbe) := by
  cases hp : p.probe n with
  | none => simp only [Part.beginMeasure, hp]
  | some pr => simp only [Part.beginMeasure, hp, h pr hp, ne_eq, not_false_eq_true, if_true]

theorem Part.beginMeasure_analog {point : Fin 12} {settle : Settle} {dflt : Nat} {low high : Int} (hn : p.probe n = some pr)
    (hf : pr.fixture = f) (hb : pr.body = .analog point settle dflt low high) :
    p.beginMeasure f n k = (p.setProgress f (.analog pr [])).raiseRequest f (.analog point settle) (if k = 0 then dflt else k) := by
  simp only [Part.beginMeasure, hn, hf, hb, ne_eq, not_true_eq_false, if_false]

theorem Part.beginMeasure_timing {l : LineIx} {q : Quantity} {w : Nat} (hn : p.probe n = some pr) (hf : pr.fixture = f)
    (hb : pr.body = .timing l q w) :
    p.beginMeasure f n k = if (p.fx f).outs.inEnable.getLsbD l.val then (p.setProgress f (.timing pr)).modFx f fun x =>
        { x with capture := { state := .armed, line := l, window := w, periods := 0, total := 0, high := 0 } }
      else p.closeStep f (.incomplete .lineDisabled) := by
  simp only [Part.beginMeasure, hn, hf, hb, ne_eq, not_true_eq_false, if_false]

theorem Part.beginMeasure_frameField {e : Fin 8} {b w : Nat} {sg : Bool} {nu : Int} {de : Nat} {o : Int} (hn : p.probe n = some pr)
    (hf : pr.fixture = f) (hb : pr.body = .frameField e b w sg nu de o) :
    p.beginMeasure f n k = if ((p.fx f).watchOf e).enabled then (p.setProgress f (.frameField pr)).modWatch f e fun w =>
        { w with fresh := false }
      else p.closeStep f (.incomplete .undefinedProbe) := by
  simp only [Part.beginMeasure, hn, hf, hb, ne_eq, not_true_eq_false, if_false]

end

/-- A request raised while a burst is in progress waits. -/
theorem Part.raiseRequest_busy {p : Part} (h : p.conv.burst.isSome = true) (f : FixtureIx) (kind : ConvKind) (n : Nat) :
    p.raiseRequest f kind n =
      { p with conv := p.conv.setReq f (some { level := (p.fx f).run.priority, kind := kind, remaining := n }) } :=
  Part.tryBurst_busy h

/-- Settles O25, by the kind of step. -/
theorem stepsStartAndWait : Obligations.StepsStartAndWait := by
  unfold Obligations.StepsStartAndWait
  intro s f st rest hp ho hi hq hlog x started plain
  have waits : ∀ q : Part, st.body ≠ .mark → s.part.beginStep Part.tryGrant f st rest = q → (q.fx f).inflight.isSome = true →
      exec (.stepStart f) s = .next (s.withPart q) := fun q hm hb hw => by
    rw [exec_stepStart hp, Part.runQueue_waits ho hi hq (Step.isMark_of_ne hm) hlog hb hw]
  have taken : (s.part.takeHead f st rest).fx f = { s.part.fx f with
      queue := rest, stalled := false, inflight := some { step := st, startedAt := s.part.clock, progress := .plain } } :=
    s.part.takeHead_fx f st rest
  have isSome : (((s.part.takeHead f st rest)).fx f).inflight.isSome = true := by rw [taken]; rfl
  have isSome' : ∀ g, ((s.part.started f st rest g).fx f).inflight.isSome = true := fun g => by rw [Part.started, Part.modFx_fx]; rfl
  refine ⟨fun r hb hpath => ?set, fun ms hb hms => ?wait, fun ms hb hs => ?supplyOn, fun l level ms hb he hr => ?line,
    fun c ms hb hc hs => ?channelEnd, fun e ms hb he => ?frame, fun kind ms text hb => ?prompt,
    fun n k lo hi g ms pr l q w hb hn hf hbody he => ?timing, fun n k lo hi g ms pr e b w sg nu de o hb hn hf hbody he => ?frameField,
    fun n k lo hi g ms pr point settle dflt low high burst hb hn hf hbody hburst => ?analog,
    fun threshold hold ms burst hb hs hburst => ?quiescent⟩
  case set =>
    refine waits (s.part.takeHead f st rest) (by rw [hb]; nofun) ?_ isSome
    rw [Part.beginStep_set hb, Part.tryGrant_busy (p := s.part.takeHead f st rest) (Option.isSome_iff_ne_none.mpr hpath)]
  case wait =>
    refine waits (s.part.takeHead f st rest) (by rw [hb]; nofun) ?_ isSome
    rw [Part.beginStep_wait hb, if_neg hms]
  case supplyOn =>
    refine waits (s.part.takeHead f st rest) (by rw [hb]; nofun) ?_ isSome
    rw [Part.beginStep_waitFor hb, Part.beginWaitFor, taken]
    exact if_neg hs
  case line =>
    refine waits (s.part.takeHead f st rest) (by rw [hb]; nofun) ?_ isSome
    rw [Part.beginStep_waitFor hb, Part.beginWaitFor, taken]
    exact (if_neg (by simpa using he)).trans (if_neg hr)
  case channelEnd =>
    refine waits (s.part.takeHead f st rest) (by rw [hb]; nofun) ?_ isSome
    rw [Part.beginStep_waitFor hb]
    have hc' : ((s.part.takeHead f st rest).ch c).boundTo f = true := hc
    have hs' : ((s.part.takeHead f st rest).ch c).state = .playing ∨ ((s.part.takeHead f st rest).ch c).state = .starved := hs
    rcases hs' with hs' | hs' <;> simp [Part.beginWaitFor, hc', hs']
  case frame =>
    refine waits ((s.part.takeHead f st rest).modWatch f e fun w => { w with fresh := false }) (by rw [hb]; nofun) ?_
      (by rw [Part.modWatch, Part.modFx_fx]; exact isSome)
    rw [Part.beginStep_waitFor hb, Part.beginWaitFor]
    exact if_pos (by rw [taken]; exact he)
  case prompt =>
    have e := Part.setProgress_takeHead s.part f st rest (.prompt (s.part.con (consoleFor f)).nextId)
    refine waits _ (by rw [hb]; nofun) ((Part.beginStep_prompt hb).trans ?_) (by rw [Part.modCon_fx]; exact isSome' _)
    refine Eq.trans (congrArg (Part.addNormal _) e) (Part.modCon_congr ?_)
    rw [Part.normalEntry, taken]
    rfl
  case timing =>
    refine waits _ (by rw [hb]; nofun) ((Part.beginStep_measure hb).trans ?_) (by rw [Part.modFx_fx]; exact isSome' _)
    rw [Part.beginMeasure_timing (p := s.part.takeHead f st rest) hn hf hbody, if_pos (by rw [taken]; exact he),
      Part.setProgress_takeHead]
    rfl
  case frameField =>
    refine waits _ (by rw [hb]; nofun) ((Part.beginStep_measure hb).trans ?_) (by rw [Part.modWatch, Part.modFx_fx]; exact isSome' _)
    rw [Part.beginMeasure_frameField (p := s.part.takeHead f st rest) hn hf hbody, if_pos (by rw [taken]; exact he),
      Part.setProgress_takeHead]
    rfl
  case analog =>
    refine waits _ (by rw [hb]; nofun) ((Part.beginStep_measure hb).trans ?_) (isSome' _)
    rw [Part.beginMeasure_analog (p := s.part.takeHead f st rest) hn hf hbody, Part.setProgress_takeHead,
      Part.raiseRequest_busy (p := s.part.started f st rest _) (congrArg Option.isSome hburst),
      Part.started, Part.modFx_fx]
    rfl
  case quiescent =>
    refine waits _ (by rw [hb]; nofun) ((Part.beginStep_waitFor hb).trans ?_) (isSome' _)
    rw [Part.beginWaitFor, if_pos (by rw [taken]; exact hs), Part.setProgress_takeHead,
      Part.raiseRequest_busy (p := s.part.started f st rest _) (congrArg Option.isSome hburst),
      Part.started, Part.modFx_fx]
    rfl

end Sys2Proof.Machine
end

section
/-! PROOFS. Steps that end at their start, and a channel's START and STOP (sections 2.3 to 2.6 and 4.2). -/

namespace Sys2Proof.Machine

open Sys2Proof

/-! ## A step that ends at its start -/

/-- The only step of the queue has started and ended with its result. -/
def Part.endedHead (f : FixtureIx) (st : Step) (e : StepEnd) (p : Part) : Part :=
  p.modFx f fun x => { x with queue := [], stalled := false }.withResult (x.recordFor st p.clock p.uptime e)

theorem Part.closeStep_takeHead {p : Part} {f : FixtureIx} (h : (p.fx f).run.policy = .cont) (st : Step) (e : StepEnd) :
    (p.takeHead f st []).closeStep f e = p.endedHead f st e := by
  have taken := p.takeHead_fx f st []
  have hi : ((p.takeHead f st []).fx f).inflight = some { step := st, startedAt := p.clock, progress := .plain } := by rw [taken]
  have hr : (p.takeHead f st []).releaseStep f = p.takeHead f st [] := by rw [Part.releaseStep, hi]
  rw [Part.closeStep_quiet hi (.inl (by rw [taken]; exact h)), hr, Part.takeHead, Part.modFx_modFx]
  rfl

/-- The round of a head that ends at its start is the last when nothing is queued behind it. -/
theorem Part.runQueue_ends {p q : Part} {f : FixtureIx} {st : Step} {e : StepEnd} (ha : (p.fx f).run.state = .active)
    (hi : (p.fx f).inflight = none) (hq : (p.fx f).queue = [st]) (hm : st.body ≠ .mark) (hlog : (p.fx f).log.length < 64)
    (hb : p.beginStep Part.tryGrant f st [] = q.endedHead f st e) (hx : q.fx f = p.fx f) : p.runQueue f = q.endedHead f st e := by
  rw [Part.runQueue_begin (Run.isOpen_iff.mpr (.inl ha)) hi hq (Step.isMark_of_ne hm) hlog, hb]
  refine Part.runQueueWith_idle ?_ ?_
  · rw [Part.endedHead, Part.modFx_fx]; rfl
  · rw [Part.endedHead, Part.modFx_fx, hx]; exact ha

/-! ## A channel's START -/

section
variable {p : Part} {f : FixtureIx} {c : ChannelIx} {d : ChannelDef}

theorem Part.modCh_congr {g h : Channel → Channel} (e : g (p.ch c) = h (p.ch c)) : p.modCh c g = p.modCh c h := by
  simp only [Part.modCh, e]

/-- A change that leaves the channel as it is changes nothing. -/
theorem Part.modCh_self {g : Channel → Channel} (e : g (p.ch c) = p.ch c) : p.modCh c g = p := by
  simp only [Part.modCh, e]
  simp [Part.ch]

theorem Channel.boundTo_of_defn {ch : Channel} (hd : ch.defn = some d) (hf : d.fixture = f) : ch.boundTo f = true := by
  simp [Channel.boundTo, hd, hf]

theorem Part.startOutcome_notBound (hb : (p.ch c).boundTo f = false) : p.startOutcome f c = .incomplete .notBound := by
  simp [Part.startOutcome, hb]

theorem Part.startOutcome_faulted (hb : (p.ch c).boundTo f = true) (hs : (p.ch c).state = .faulted) :
    p.startOutcome f c = .incomplete .channelFault := by
  simp [Part.startOutcome, hb, hs]

theorem Part.startOutcome_busy (hb : (p.ch c).boundTo f = true) (hs : (p.ch c).state = .playing ∨ (p.ch c).state = .starved) :
    p.startOutcome f c = .incomplete .busy := by
  rcases hs with hs | hs <;> simp [Part.startOutcome, hb, hs]

theorem Part.startOutcome_passed (hb : (p.ch c).boundTo f = true) (hs : (p.ch c).state = .idle ∨ (p.ch c).state = .done) :
    p.startOutcome f c = .passed := by
  rcases hs with hs | hs <;> simp [Part.startOutcome, hb, hs]

theorem Part.beginStart_passed (h : p.startOutcome f c = .passed) : p.beginStart f c = (p.startChannel c).closeStep f .passed := by
  rw [Part.beginStart, h]
  exact congrArg (Part.closeStep f .passed) (if_pos rfl)

theorem Part.beginStart_refused {r : Reason} (h : p.startOutcome f c = .incomplete r) :
    p.beginStart f c = p.closeStep f (.incomplete r) := by
  rw [Part.beginStart, h]
  exact congrArg (Part.closeStep f (.incomplete r)) (if_neg nofun)

theorem Part.startChannel_plain (hd : (p.ch c).defn = some d) (hm : d.mode ≠ .pingpong) :
    p.startChannel c = p.modCh c fun ch =>
      { ch with state := .playing, due := true, bank := some .a, position := d.aStart, remaining := d.aCount, passes := 0 } := by
  have hfirst : d.first = .a := if_neg hm
  simp only [Part.startChannel, hd, hfirst, hm, false_and, if_false]
  exact Part.modCh_congr rfl

theorem Part.startChannel_ready (hd : (p.ch c).defn = some d) (hm : d.mode = .pingpong) (hr : (p.ch c).ready d.first = true) :
    p.startChannel c = p.modCh c fun ch => ({ ch with passes := 0 }.enter d d.first).setReady d.first false := by
  simp only [Part.startChannel, hd, hm, hr, Bool.true_eq_false, and_false, if_false, if_true]

theorem Part.startChannel_starved (hd : (p.ch c).defn = some d) (hm : d.mode = .pingpong) (hr : (p.ch c).ready d.first = false) :
    p.startChannel c =
      (p.modCh c fun ch => { ch with passes := 0, position := d.start d.first, state := .starved, due := false, bank := none }).post
        (.channelEvent c d.fixture .starved (some d.first) 0 .none) := by
  simp only [Part.startChannel, hd, hm, hr, and_self, if_true]
  rw [Part.postChannel, Part.modCh_ch, hd]
  rfl

/-- A start or a resumption uses up the flag of the bank it enters. -/
theorem Channel.enter_setReady (bk : Bank) (d : ChannelDef) :
    (fun ch : Channel => ({ ch with passes := 0 }.enter d bk).setReady bk false) = fun ch =>
      { ch with state := .playing, due := true, bank := some bk, position := d.start bk, remaining := d.count bk, passes := 0
                readyA := ch.readyA && bk != .a, readyB := ch.readyB && bk != .b } := by
  funext ch
  cases bk <;> simp [Channel.enter, Channel.setReady]

theorem ChannelDef.first_pingpong (hm : d.mode = .pingpong) : d.first = if d.firstBank = 2 then .b else .a := by
  rw [ChannelDef.first, if_pos hm, bankOf]
  by_cases h2 : d.firstBank = 2
  · rw [if_pos h2, h2]; rfl
  · have hn : d.firstBank.toNat ≠ 2 := fun e => h2 (BitVec.eq_of_toNat_eq e)
    rw [if_neg h2, if_neg hn]
    split_ifs <;> rfl

end

/-- Settles O26, by the kind of step. -/
theorem stepsEndAtTheirStart : Obligations.StepsEndAtTheirStart := by
  unfold Obligations.StepsEndAtTheirStart
  intro s f st hp ha hpol hi hq hlog x ends incomplete passes
  have ends_of : ∀ (q : Part) (e : StepEnd), st.body ≠ .mark → q.fx f = s.part.fx f →
      s.part.beginStep Part.tryGrant f st [] = (q.takeHead f st []).closeStep f e →
      exec (.stepStart f) s = .next (s.withPart (q.endedHead f st e)) := fun q e hm hx hb => by
    rw [Part.closeStep_takeHead (by rw [hx]; exact hpol)] at hb
    rw [exec_stepStart hp, Part.runQueue_ends ha hi hq hm hlog hb hx]
  have granted : ∀ (q : Part) (e : StepEnd), st.body ≠ .mark → q.fx f = s.part.fx f → q.pathBusy ≠ none →
      s.part.beginStep Part.tryGrant f st [] = ((q.takeHead f st []).closeStep f e).tryGrant →
      exec (.stepStart f) s = .next (s.withPart (q.endedHead f st e)) := fun q e hm hx hbusy hb => by
    refine ends_of q e hm hx (hb.trans (Part.tryGrant_busy ?_))
    rw [Part.closeStep_takeHead (by rw [hx]; exact hpol)]
    exact Option.isSome_iff_ne_none.mpr hbusy
  have taken := s.part.takeHead_fx f st []
  refine ⟨fun hb => ?wait, fun c ms hb => ⟨fun hc => ?endNotBound, fun hc hs => ?endFaulted, fun hc hs => ?endIdle⟩,
    fun ms hb hs => ?supplyOn, fun l level ms hb => ⟨fun he => ?lineDisabled, fun he hr => ?lineLevel⟩, fun e ms hb he => ?frame,
    fun threshold hold ms hb hs => ?quiescent, fun n k lo hi' g ms hb hn => ?undefined,
    fun n k lo hi' g ms pr hb hn hf => ⟨fun l q w hbody he => ?timing, fun e b w sg nu de o hbody he => ?frameField⟩,
    fun c hb => ⟨fun hc hbusy => ?startNotBound, fun hc hs hbusy => ?startFaulted, fun hc hs hbusy => ?startBusy,
      fun d hd hf hs hm hbusy => ?startPlain⟩, fun c d hb hd hf hs hm hbusy => ?startPingpong,
    fun c hb => ⟨fun hc => ?stopNotBound, fun hc hs => ?stopPlaying, fun hc h1 h2 => ?stopIdle⟩⟩
  case wait => exact ends_of s.part _ (by rw [hb]; nofun) rfl ((Part.beginStep_wait hb).trans (if_pos rfl))
  case endNotBound =>
    refine ends_of s.part _ (by rw [hb]; nofun) rfl ((Part.beginStep_waitFor hb).trans ?_)
    have hc' : ((s.part.takeHead f st []).ch c).boundTo f = false := hc
    simp only [Part.beginWaitFor, hc']
    rfl
  case endFaulted =>
    refine ends_of s.part _ (by rw [hb]; nofun) rfl ((Part.beginStep_waitFor hb).trans ?_)
    have hc' : ((s.part.takeHead f st []).ch c).boundTo f = true := hc
    have hs' : ((s.part.takeHead f st []).ch c).state = .faulted := hs
    simp only [Part.beginWaitFor, hc', hs']
    rfl
  case endIdle =>
    refine ends_of s.part _ (by rw [hb]; nofun) rfl ((Part.beginStep_waitFor hb).trans ?_)
    have hc' : ((s.part.takeHead f st []).ch c).boundTo f = true := hc
    have hs' : ((s.part.takeHead f st []).ch c).state = .idle ∨ ((s.part.takeHead f st []).ch c).state = .done := hs
    rcases hs' with hs' | hs' <;> simp only [Part.beginWaitFor, hc', hs'] <;> rfl
  case supplyOn =>
    refine ends_of s.part _ (by rw [hb]; nofun) rfl ((Part.beginStep_waitFor hb).trans ?_)
    exact if_pos (by rw [taken]; exact hs)
  case lineDisabled =>
    refine ends_of s.part _ (by rw [hb]; nofun) rfl ((Part.beginStep_waitFor hb).trans ?_)
    exact if_pos (by rw [taken]; simpa using he)
  case lineLevel =>
    refine ends_of s.part _ (by rw [hb]; nofun) rfl ((Part.beginStep_waitFor hb).trans ?_)
    exact (if_neg (by rw [taken]; simpa using he)).trans (if_pos (by rw [taken]; exact hr))
  case frame =>
    refine ends_of s.part _ (by rw [hb]; nofun) rfl ((Part.beginStep_waitFor hb).trans ?_)
    exact if_neg (by rw [taken]; exact Bool.not_eq_true _ ▸ he)
  case quiescent =>
    refine ends_of s.part _ (by rw [hb]; nofun) rfl ((Part.beginStep_waitFor hb).trans ?_)
    exact if_neg (by rw [taken]; exact hs)
  case undefined =>
    exact ends_of s.part _ (by rw [hb]; nofun) rfl ((Part.beginStep_measure hb).trans
      (Part.beginMeasure_undefined (p := s.part.takeHead f st []) hn))
  case timing =>
    exact ends_of s.part _ (by rw [hb]; nofun) rfl ((Part.beginStep_measure hb).trans
      ((Part.beginMeasure_timing (p := s.part.takeHead f st []) hn hf hbody).trans (if_neg (by rw [taken]; exact ne_true_of_eq_false he))))
  case frameField =>
    exact ends_of s.part _ (by rw [hb]; nofun) rfl ((Part.beginStep_measure hb).trans
      ((Part.beginMeasure_frameField (p := s.part.takeHead f st []) hn hf hbody).trans
        (if_neg (by rw [taken]; exact ne_true_of_eq_false he))))
  case startNotBound =>
    refine granted s.part _ (by rw [hb]; nofun) rfl hbusy ((Part.beginStep_start hb).trans (congrArg Part.tryGrant ?_))
    exact Part.beginStart_refused (Part.startOutcome_notBound (p := s.part.takeHead f st []) hc)
  case startFaulted =>
    refine granted s.part _ (by rw [hb]; nofun) rfl hbusy ((Part.beginStep_start hb).trans (congrArg Part.tryGrant ?_))
    exact Part.beginStart_refused (Part.startOutcome_faulted (p := s.part.takeHead f st []) hc hs)
  case startBusy =>
    refine granted s.part _ (by rw [hb]; nofun) rfl hbusy ((Part.beginStep_start hb).trans (congrArg Part.tryGrant ?_))
    exact Part.beginStart_refused (Part.startOutcome_busy (p := s.part.takeHead f st []) hc hs)
  case startPlain =>
    refine granted (s.part.modCh c _) _ (by rw [hb]; nofun) rfl hbusy ((Part.beginStep_start hb).trans (congrArg Part.tryGrant ?_))
    have hout := Part.startOutcome_passed (p := s.part.takeHead f st []) (Channel.boundTo_of_defn hd hf) hs
    rw [Part.beginStart_passed hout, Part.startChannel_plain (p := s.part.takeHead f st []) hd hm]
    rfl
  case startPingpong =>
    have hout := Part.startOutcome_passed (p := s.part.takeHead f st []) (Channel.boundTo_of_defn hd hf) hs
    have key : ∀ bk, d.first = bk →
        ((s.part.ch c).ready bk = true → ends .passed (s.part.modCh c fun ch =>
          { ch with state := .playing, due := true, bank := some bk, position := d.start bk, remaining := d.count bk, passes := 0
                    readyA := ch.readyA && bk != .a, readyB := ch.readyB && bk != .b })) ∧
        ((s.part.ch c).ready bk = false → ends .passed ((s.part.modCh c fun ch =>
          { ch with state := .starved, due := false, bank := none, position := d.start bk, passes := 0 }).post
            (.channelEvent c f .starved (some bk) 0 .none))) := fun bk hbk => by
      refine ⟨fun hr => ?_, fun hr => ?_⟩
      · refine granted (s.part.modCh c _) _ (by rw [hb]; nofun) rfl hbusy ((Part.beginStep_start hb).trans (congrArg Part.tryGrant ?_))
        rw [Part.beginStart_passed hout, Part.startChannel_ready (p := s.part.takeHead f st []) hd hm (by rw [hbk]; exact hr), hbk,
          Channel.enter_setReady bk d]
        rfl
      · refine granted ((s.part.modCh c _).post _) _ (by rw [hb]; nofun) rfl hbusy
          ((Part.beginStep_start hb).trans (congrArg Part.tryGrant ?_))
        rw [Part.beginStart_passed hout, Part.startChannel_starved (p := s.part.takeHead f st []) hd hm (by rw [hbk]; exact hr), hbk, hf]
        rfl
    exact key _ (ChannelDef.first_pingpong hm)
  case stopNotBound =>
    refine ends_of s.part _ (by rw [hb]; nofun) rfl ((Part.beginStep_stop hb).trans ?_)
    exact if_neg (ne_true_of_eq_false hc)
  case stopPlaying =>
    have hh : (s.part.ch c).halted = { s.part.ch c with state := .idle, due := false, bank := none } :=
      if_pos (by rcases hs with hs | hs <;> simp [hs])
    refine ends_of (s.part.modCh c _) _ (by rw [hb]; nofun) rfl ((Part.beginStep_stop hb).trans ((if_pos hc).trans ?_))
    rw [Part.modCh_congr (p := s.part.takeHead f st []) (h := fun ch => { ch with state := .idle, due := false, bank := none }) hh]
    rfl
  case stopIdle =>
    have hh : (s.part.ch c).halted = s.part.ch c := if_neg (by simp [h1, h2])
    refine ends_of s.part _ (by rw [hb]; nofun) rfl ((Part.beginStep_stop hb).trans ((if_pos hc).trans ?_))
    exact congrArg (Part.closeStep f .passed) (Part.modCh_self (p := s.part.takeHead f st []) hh)

end Sys2Proof.Machine
end

section
/-! PROOFS. The timers of steps: durations, timeouts and due readings; the failure policy (chapter 2 and section 1.3). -/

namespace Sys2Proof.Machine

open Sys2Proof

/-! ## The withdrawal of a request -/

section
variable {p : Part} {f : FixtureIx} {b : Burst}

/-- A burst that is orphaned already, or another's, runs on as it is. -/
theorem Part.withdraw_other (h : ∀ b, p.conv.burst = some b → b.requester ≠ .fixture f ∨ b.orphan = true) :
    p.withdraw f = { p with conv := p.conv.setReq f none } := by
  unfold Part.withdraw
  dsimp only
  split
  · rfl
  · rename_i b hb
    rw [if_neg fun k => (h b hb).elim (· k.1) (by rw [k.2]; nofun)]
    rfl

theorem Part.withdraw_running (hb : p.conv.burst = some b) (hr : b.requester = .fixture f) (ho : b.orphan = false)
    (hs : ∀ g, b.stage ≠ .waitReady g) :
    p.withdraw f = { p with conv := { p.conv.setReq f none with burst := some { b with orphan := true } } } := by
  have hb' : (p.modConv fun v => v.setReq f none).conv.burst = some b := hb
  simp only [Part.withdraw, hb', hr, ho, and_self, if_true]
  rfl

theorem Part.withdraw_waiting (hb : p.conv.burst = some b) (hr : b.requester = .fixture f) (ho : b.orphan = false) {g : Nat}
    (hs : b.stage = .waitReady g) :
    p.withdraw f =
      { p with conv := { p.conv.setReq f none with burst := none, lastInput := none } : Part }.afterBurst := by
  have hb' : (p.modConv fun v => v.setReq f none).conv.burst = some b := hb
  simp only [Part.withdraw, hb', hr, ho, hs, and_self, if_true]
  rfl

/-- A burst whose fixture has withdrawn its request. -/
def Burst.orphanedBy (f : FixtureIx) (b : Burst) : Burst := if b.requester = .fixture f then { b with orphan := true } else b

/-- With no READY wait a withdrawal orphans the fixture's own burst. -/
theorem Part.withdraw_orphans (h : ∀ b, p.conv.burst = some b → ∀ g, b.stage ≠ .waitReady g) :
    p.withdraw f = { p with conv := { p.conv.setReq f none with burst := p.conv.burst.map (Burst.orphanedBy f) } } := by
  cases hb : p.conv.burst with
  | none =>
    rw [Part.withdraw_other (by rw [hb]; nofun)]
    have : (p.conv.setReq f none).burst = none := hb
    rw [Option.map_none, ← this]
  | some b =>
    have hburst : (p.conv.setReq f none).burst = some b := hb
    by_cases hr : b.requester = .fixture f
    · cases ho : b.orphan with
      | false =>
        rw [Part.withdraw_running hb hr ho (h b hb), Option.map_some, Burst.orphanedBy, if_pos hr]
      | true =>
        have same : b.orphanedBy f = b := by rw [Burst.orphanedBy, if_pos hr, ← ho]
        rw [Part.withdraw_other (by rw [hb]; rintro _ ⟨⟩; exact .inr ho), Option.map_some, same, ← hburst]
    · have same : b.orphanedBy f = b := if_neg hr
      rw [Part.withdraw_other (by rw [hb]; rintro _ ⟨⟩; exact .inl hr), Option.map_some, same, ← hburst]

end

/-! ## The range's return to HIGH -/

theorem ConvInput.isCurrent_iff (i : ConvInput) (f : FixtureIx) :
    i.isCurrent f = true ↔ i = .point f 9 .high ∨ i = .point f 9 .low := by
  cases i with
  | reference => simp [ConvInput.isCurrent]
  | point g pt r => cases r <;> simp [ConvInput.isCurrent]

/-- A burst that a change of the range breaks. -/
def Burst.brokenBy (f : FixtureIx) (b : Burst) : Burst :=
  if b.input = .point f 9 .high ∨ b.input = .point f 9 .low then { b with broken := true } else b

/-- The converter after a change of a fixture's range. -/
def Converter.rangeMoved (f : FixtureIx) (v : Converter) : Converter :=
  { v with lastInput := none, rangeSettle := v.rangeSettle ||| (1#8 <<< f.val), burst := v.burst.map (Burst.brokenBy f) }

theorem Part.changeRange_eq (p : Part) (f : FixtureIx) (r : Range) :
    p.changeRange f r = ((p.modSupply f fun s => { s with range := r }).modConv (Converter.rangeMoved f)).clearBelow f := by
  have hb : (fun b : Burst => if b.input.isCurrent f then { b with broken := true } else b) = Burst.brokenBy f := by
    funext b
    simp only [Burst.brokenBy, ConvInput.isCurrent_iff]
  rw [Part.changeRange, hb]
  rfl

/-! ## The end of a step by a timer -/

/-- The step in flight ends at a moment with its result; what it had set going is undone first. -/
def Part.resulted (f : FixtureIx) (i : InFlight) (e : StepEnd) (p : Part) : Part :=
  p.modFx f fun x => x.withResult (x.recordFor i.step i.startedAt p.uptime e)

section
variable {p : Part} {f : FixtureIx} {i : InFlight}

theorem Part.waitOver_none (h : (p.fx f).waitUntil = none) : p.waitOver f = p := by rw [Part.waitOver, h]

theorem Part.stepTimedOut_none (h : (p.fx f).timeoutAt = none) : p.stepTimedOut f = p := by rw [Part.stepTimedOut, h]

theorem Part.readingDue_none (h : (p.fx f).readingAt = none) : p.readingDue f = p := by rw [Part.readingDue, h]

theorem Part.waitOver_some (hi : (p.fx f).inflight = some i) {ms : Nat} (hb : i.step.body = .wait ms) :
    p.waitOver f = (p.advanceTo (i.startedAt + ms * 1000)).finish f .passed := by
  have h : (p.fx f).waitUntil = some (i.startedAt + ms * 1000) := by simp only [Fixture.waitUntil, hi, hb]
  rw [Part.waitOver, h]

theorem Part.stepTimedOut_some (hi : (p.fx f).inflight = some i) {ms : Nat} (ht : i.step.body.timeout = ms) (hms : ms ≠ 0) :
    p.stepTimedOut f = (p.advanceTo (i.startedAt + ms * 1000)).finish f ((p.advanceTo (i.startedAt + ms * 1000)).timeoutEnd f i) := by
  have h : (p.fx f).timeoutAt = some (i.startedAt + ms * 1000) := by simp only [Fixture.timeoutAt, hi, ht, if_neg hms]
  rw [Part.stepTimedOut, h, hi]

theorem Part.readingDue_some (hi : (p.fx f).inflight = some i) {last : Option Reading} {since : Option (BitVec 32)} {due : Nat}
    (hg : i.progress = .quiescent last since (some due)) :
    p.readingDue f = ((p.advanceTo (due * 1000)).setProgress f (.quiescent last since none)).raiseRequest f .quiescent 4 := by
  have h : (p.fx f).readingAt = some (due * 1000) := by simp only [Fixture.readingAt, hi, hg]
  simp only [Part.readingDue, h, hi, hg]

/-- A step that ends in a quiet run: its release, and its result. -/
theorem Part.finish_released (hi : (p.fx f).inflight = some i) (hc : (p.fx f).run.policy = .cont) (ha : (p.fx f).run.state = .active)
    (hq : (p.fx f).queue = []) (e : StepEnd) : p.finish f e = (p.releaseStep f).modFx f fun x =>
      x.withResult (x.recordFor i.step i.startedAt p.uptime e) :=
  Part.finish_quiet hi (.inl hc) ha hq

theorem Part.releaseStep_plain (hi : (p.fx f).inflight = some i) (hg : i.progress = .plain) : p.releaseStep f = p := by
  simp only [Part.releaseStep, hi, hg]

theorem Part.releaseStep_frameField (hi : (p.fx f).inflight = some i) {pr : Probe} (hg : i.progress = .frameField pr) :
    p.releaseStep f = p := by
  simp only [Part.releaseStep, hi, hg]

theorem Part.releaseStep_analog (hi : (p.fx f).inflight = some i) {pr : Probe} {taken : List Nat} (hg : i.progress = .analog pr taken) :
    p.releaseStep f = p.withdraw f := by
  simp only [Part.releaseStep, hi, hg]

theorem Part.releaseStep_quiescent (hi : (p.fx f).inflight = some i) {last : Option Reading} {since : Option (BitVec 32)}
    {due : Option Nat} (hg : i.progress = .quiescent last since due) : p.releaseStep f = (p.withdraw f).rangeHigh f := by
  simp only [Part.releaseStep, hi, hg]

theorem Part.releaseStep_timing (hi : (p.fx f).inflight = some i) {pr : Probe} (hg : i.progress = .timing pr) :
    p.releaseStep f = p.modFx f fun x => { x with capture := { x.capture with state := .idle } } := by
  simp only [Part.releaseStep, hi, hg]

theorem Part.releaseStep_prompt (hi : (p.fx f).inflight = some i) {n : Nat} (hg : i.progress = .prompt n) :
    p.releaseStep f = p.removeNormal f := by
  simp only [Part.releaseStep, hi, hg]

end

/-! ## Changes that do not meet -/

theorem Part.modCon_modFx (p : Part) (k : ConsoleId) (f : FixtureIx) (g : Console → Console) (h : Fixture → Fixture) :
    (p.modCon k g).modFx f h = (p.modFx f h).modCon k g := by cases k <;> rfl

/-! ## The grant of a burst, by its cases -/

section
variable {p : Part}

theorem Part.tryBurst_reference (hb : p.conv.burst = none) (hm : p.lend.matrix = .owned) {n : Nat} (hr : p.conv.reference = some n) :
    p.tryBurst = p.beginBurst .reference .reference (min 8 n) (.fixed 200) := by
  simp [Part.tryBurst, hb, hm, hr]

theorem Part.tryBurst_unasked (hb : p.conv.burst = none) (hm : p.lend.matrix = .owned) (hr : p.conv.reference = none)
    (hc : p.conv.choose = none) : p.tryBurst = p := by
  simp [Part.tryBurst, hb, hm, hr, hc]

/-- A fixture's burst on its current range takes up the range-settle flag. -/
def Part.takeSettle (f : FixtureIx) (input : ConvInput) (p : Part) : Part :=
  if input.isCurrent f then p.modConv fun v => { v with rangeSettle := v.rangeSettle &&& ~~~fixtureBit f } else p

theorem Part.tryBurst_chosen (hb : p.conv.burst = none) (hm : p.lend.matrix = .owned) (hr : p.conv.reference = none)
    {f : FixtureIx} {r : ConvRequest} (hc : p.conv.choose = some (f, r)) :
    p.tryBurst = (p.takeSettle f (p.inputOf f r.kind)).beginBurst (.fixture f) (p.inputOf f r.kind) (min 8 r.remaining)
      (p.settlePlan f r.kind) := by
  simp [Part.tryBurst, hb, hm, hr, hc, Part.takeSettle]

theorem Part.beginBurst_modFx (q : Part) (f : FixtureIx) (g : Fixture → Fixture) (r : Requester) (i : ConvInput) (n : Nat)
    (plan : SettlePlan) : (q.modFx f g).beginBurst r i n plan = (q.beginBurst r i n plan).modFx f g := by
  cases plan <;> rfl

theorem Part.takeSettle_modFx (q : Part) (f h : FixtureIx) (g : Fixture → Fixture) (i : ConvInput) :
    (q.modFx f g).takeSettle h i = (q.takeSettle h i).modFx f g := by
  unfold Part.takeSettle
  split <;> rfl

/-- The grant of a burst looks at a fixture's supply alone. -/
theorem Part.tryBurst_modFx {f : FixtureIx} {g : Fixture → Fixture} (hs : (g (p.fx f)).supply = (p.fx f).supply) :
    (p.modFx f g).tryBurst = p.tryBurst.modFx f g := by
  have hfx : ∀ h : FixtureIx, ((p.modFx f g).fx h).supply = (p.fx h).supply := by
    intro h
    by_cases hf : h = f
    · rw [hf, Part.modFx_fx, hs]
    · rw [Part.modFx_fx_ne _ _ hf]
  have hin : ∀ h k, (p.modFx f g).inputOf h k = p.inputOf h k := by
    intro h k
    cases k with
    | analog pt st => rfl
    | quiescent => rw [Part.inputOf, hfx]; rfl
  have hplan : ∀ h k, (p.modFx f g).settlePlan h k = p.settlePlan h k := by
    intro h k
    simp only [Part.settlePlan, hin, Part.modFx_conv]
  cases hb : p.conv.burst with
  | some b => rw [Part.tryBurst_busy (congrArg Option.isSome hb), Part.tryBurst_busy (p := p.modFx f g) (congrArg Option.isSome hb)]
  | none =>
    by_cases hm : p.lend.matrix = .owned
    · cases hr : p.conv.reference with
      | some n =>
        rw [Part.tryBurst_reference hb hm hr, Part.tryBurst_reference (p := p.modFx f g) hb hm hr, Part.beginBurst_modFx]
      | none =>
        cases hc : p.conv.choose with
        | none => rw [Part.tryBurst_unasked hb hm hr hc, Part.tryBurst_unasked (p := p.modFx f g) hb hm hr hc]
        | some c =>
          rw [Part.tryBurst_chosen hb hm hr hc, Part.tryBurst_chosen (p := p.modFx f g) hb hm hr hc, hin, hplan, Part.takeSettle_modFx,
            Part.beginBurst_modFx]
    · rw [Part.tryBurst_lent hm, Part.tryBurst_lent (p := p.modFx f g) hm]

end

end Sys2Proof.Machine
end

section
/-! PROOFS. The timers of steps, and the failure policy (chapter 2 and section 1.3). -/

namespace Sys2Proof.Machine

open Sys2Proof

/-- A step's timeout in a quiet run, at its deadline. -/
theorem Part.stepTimedOut_quiet {p : Part} {f : FixtureIx} {i : InFlight} (hi : (p.fx f).inflight = some i)
    (hc : (p.fx f).run.policy = .cont) (ha : (p.fx f).run.state = .active) (hq : (p.fx f).queue = []) {ms : Nat}
    (ht : i.step.body.timeout = ms) (hms : ms ≠ 0) {e : StepEnd} (he : (p.advanceTo (i.startedAt + ms * 1000)).timeoutEnd f i = e)
    {q : Part} (hr : (p.advanceTo (i.startedAt + ms * 1000)).releaseStep f = q) :
    p.stepTimedOut f = q.modFx f fun x =>
      x.withResult (x.recordFor i.step i.startedAt (p.advanceTo (i.startedAt + ms * 1000)).uptime e) := by
  rw [Part.stepTimedOut_some hi ht hms, Part.finish_released (by simpa using hi) (by simpa using hc) (by simpa using ha)
    (by simpa using hq), hr, he]

theorem exec_burstGrant (s : State) {p : Part} (hp : p.powered = true) :
    exec .burstGrant (s.withPart p) = .next (s.withPart p.tryBurst) :=
  State.event_powered (s := s.withPart p) hp Part.tryBurst

/-- Two changes of a fixture that commute on it commute. -/
theorem Part.modFx_comm {p : Part} {f : FixtureIx} {g h : Fixture → Fixture} (e : h (g (p.fx f)) = g (h (p.fx f))) :
    (p.modFx f g).modFx f h = (p.modFx f h).modFx f g := by
  rw [Part.modFx_modFx, Part.modFx_modFx]
  exact Part.modFx_congr e

theorem Part.afterBurst_owned {p : Part} (h : p.lend.matrix = .owned) : p.afterBurst = p.tryBurst := by rw [Part.afterBurst, h]

theorem Part.afterBurst_pending {p : Part} {src : LendSource} {limit : Nat} (h : p.lend.matrix = .pending src limit) :
    p.afterBurst = p.grantLend src limit := by rw [Part.afterBurst, h]

/-- The results of a fixture's timer ends leave its supply alone. -/
theorem Part.withRange_resulted (p : Part) (f : FixtureIx) (i : InFlight) (up : BitVec 32) (e : StepEnd) (r : Range) :
    ((p.modSupply f fun s => { s with range := r }).clearBelow f).modFx f
        (fun x => x.withResult (x.recordFor i.step i.startedAt up e)) =
      (p.modFx f fun x => x.withResult (x.recordFor i.step i.startedAt up e)).modFx f fun x =>
        { x with supply := { x.supply with range := r } } := by
  rw [Part.clearBelow, Part.modSupply, Part.modFx_modFx, Part.modFx_modFx, Part.modFx_modFx]
  refine Part.modFx_congr ?_
  dsimp only
  split
  · split <;> rfl
  · rfl

/-- Settles O27: each timer by its deadline, each timeout by what the step had set going. -/
theorem stepTimersEndSteps : Obligations.StepTimersEndSteps := by
  unfold Obligations.StepTimersEndSteps
  intro s f hp x
  refine ⟨fun h => ?_, fun h => ?_, fun h => ?_, fun ha hc hq i hi => ?_⟩
  · exact (State.event_powered hp _).trans (congrArg (fun q => Host.Outcome.next (s.withPart q)) (Part.waitOver_none h))
  · exact (State.event_powered hp _).trans (congrArg (fun q => Host.Outcome.next (s.withPart q)) (Part.stepTimedOut_none h))
  · exact (State.event_powered hp _).trans (congrArg (fun q => Host.Outcome.next (s.withPart q)) (Part.readingDue_none h))
  intro ends
  have timeout : ∀ {ms : Nat} {e : StepEnd} {q r : Part}, i.step.body.timeout = ms → ms ≠ 0 →
      (s.part.advanceTo (i.startedAt + ms * 1000)).timeoutEnd f i = e →
      (s.part.advanceTo (i.startedAt + ms * 1000)).releaseStep f = q →
      (q.modFx f fun x => x.withResult (x.recordFor i.step i.startedAt (s.part.advanceTo (i.startedAt + ms * 1000)).uptime e)) = r →
      exec (.stepTimeout f) s = .next (s.withPart r) := fun ht hms he hr hrel => by
    subst hrel
    exact (State.event_powered hp _).trans
      (congrArg (fun q => Host.Outcome.next (s.withPart q)) (Part.stepTimedOut_quiet hi hc ha hq ht hms he hr))
  have later : ∀ t, ((s.part.advanceTo t).fx f).inflight = some i := fun t => by simpa using hi
  have conv : ∀ t, (s.part.advanceTo t).conv = s.part.conv := fun t => Part.advanceTo_conv _ t
  have range : ∀ t, ((s.part.advanceTo t).fx f).supply.range = x.supply.range := fun t => by rw [Part.advanceTo_fx_supply]
  refine ⟨fun ms hb hg => ?wait, fun cond ms hb hms hg => ?waitFor, fun n k lo hi' g ms hb hms => ⟨fun pr hg => ?frameField,
    fun pr hg hs => ?armed, fun pr hg hs => ?counting, fun pr taken hg hburst => ?noBurst, fun pr taken b hg hburst ho => ?otherBurst,
    fun pr taken b hg hburst hr ho => ⟨fun hs => ?ownBurst, fun w hs => ?readyWait⟩⟩,
    fun threshold hold ms last since due hb hms hg hready => ⟨fun hr => ?quiescentHigh, fun hr => ?quiescentLow⟩,
    fun kind ms text n hb hms hg => ?prompt, fun last since due b hg hburst => ?reading⟩
  case wait =>
    have e := Part.finish_released (e := .passed) (later (i.startedAt + ms * 1000)) (by simpa using hc) (by simpa using ha)
      (by simpa using hq)
    rw [Part.releaseStep_plain (later _) hg] at e
    exact (State.event_powered hp _).trans
      (congrArg (fun q => Host.Outcome.next (s.withPart q)) ((Part.waitOver_some hi hb).trans e))
  case waitFor =>
    have he : (s.part.advanceTo (i.startedAt + ms * 1000)).timeoutEnd f i = { verdict := .fail, reason := .timeout } := by
      rw [Part.timeoutEnd, hg]
    exact timeout (by rw [hb]; rfl) hms he (Part.releaseStep_plain (later _) hg) rfl
  case frameField =>
    have he : (s.part.advanceTo (i.startedAt + ms * 1000)).timeoutEnd f i = { verdict := .incomplete, reason := .timeout } := by
      rw [Part.timeoutEnd, hg]; rfl
    exact timeout (by rw [hb]; rfl) hms he (Part.releaseStep_frameField (later _) hg) rfl
  case armed =>
    have he : (s.part.advanceTo (i.startedAt + ms * 1000)).timeoutEnd f i = { verdict := .incomplete, reason := .noEdges } := by
      simp only [Part.timeoutEnd, hg, Part.advanceTo_fx_captureState]
      rw [show (s.part.fx f).capture.state = _ from hs]
      rfl
    refine timeout (by rw [hb]; rfl) hms he (Part.releaseStep_timing (later _) hg) ?_
    exact Part.modFx_comm rfl
  case counting =>
    have he : (s.part.advanceTo (i.startedAt + ms * 1000)).timeoutEnd f i = { verdict := .incomplete, reason := .timeout } := by
      simp only [Part.timeoutEnd, hg, Part.advanceTo_fx_captureState]
      rw [show (s.part.fx f).capture.state = _ from hs]
      rfl
    refine timeout (by rw [hb]; rfl) hms he (Part.releaseStep_timing (later _) hg) ?_
    exact Part.modFx_comm rfl
  case noBurst =>
    have he : (s.part.advanceTo (i.startedAt + ms * 1000)).timeoutEnd f i = { verdict := .incomplete, reason := .timeout } := by
      rw [Part.timeoutEnd, hg]; rfl
    refine timeout (by rw [hb]; rfl) hms he ((Part.releaseStep_analog (later _) hg).trans
      (Part.withdraw_other (by rw [conv, hburst]; nofun))) ?_
    rw [conv]
    rfl
  case otherBurst =>
    have he : (s.part.advanceTo (i.startedAt + ms * 1000)).timeoutEnd f i = { verdict := .incomplete, reason := .timeout } := by
      rw [Part.timeoutEnd, hg]; rfl
    refine timeout (by rw [hb]; rfl) hms he ((Part.releaseStep_analog (later _) hg).trans
      (Part.withdraw_other (by rw [conv, hburst]; rintro _ ⟨⟩; exact ho))) ?_
    rw [conv]
    rfl
  case ownBurst =>
    have he : (s.part.advanceTo (i.startedAt + ms * 1000)).timeoutEnd f i = { verdict := .incomplete, reason := .timeout } := by
      rw [Part.timeoutEnd, hg]; rfl
    refine timeout (by rw [hb]; rfl) hms he ((Part.releaseStep_analog (later _) hg).trans
      (Part.withdraw_running (by rw [conv, hburst]) hr ho hs)) ?_
    rw [conv]
    rfl
  case readyWait =>
    have he : (s.part.advanceTo (i.startedAt + ms * 1000)).timeoutEnd f i = { verdict := .incomplete, reason := .timeout } := by
      rw [Part.timeoutEnd, hg]; rfl
    have hw := (Part.releaseStep_analog (later (i.startedAt + ms * 1000)) hg).trans
      (Part.withdraw_waiting (by rw [conv, hburst]) hr ho hs)
    rw [conv] at hw
    refine ⟨fun hm => ?_, fun src limit hm => ?_⟩
    · have hw := hw.trans (Part.afterBurst_owned ((congrArg Lend.matrix (Part.advanceTo_lend s.part _)).trans hm))
      refine (timeout (by rw [hb]; rfl) hms he hw (Part.tryBurst_modFx rfl).symm).trans ?_
      refine (exec_burstGrant s ?_).symm
      exact (Part.advanceTo_powered s.part _).trans hp
    · have hw := hw.trans (Part.afterBurst_pending ((congrArg Lend.matrix (Part.advanceTo_lend s.part _)).trans hm))
      refine timeout (by rw [hb]; rfl) hms he hw ?_
      rw [Part.grantLend, Part.modLend, Part.advanceTo_lend]
      rfl
  case quiescentHigh =>
    refine timeout (by rw [hb]; rfl) hms (by rw [Part.timeoutEnd, hg]) ((Part.releaseStep_quiescent (later _) hg).trans
      ((congrArg (Part.rangeHigh f) (Part.withdraw_orphans (by rw [conv]; exact hready))).trans (if_neg ?_))) ?_
    · exact fun h => nomatch (hr.symm.trans (range _).symm).trans h
    · rw [conv]
      rfl
  case quiescentLow =>
    refine timeout (by rw [hb]; rfl) hms (by rw [Part.timeoutEnd, hg]) ((Part.releaseStep_quiescent (later _) hg).trans
      ((congrArg (Part.rangeHigh f) (Part.withdraw_orphans (by rw [conv]; exact hready))).trans ((if_pos ?_).trans
        (Part.changeRange_eq _ _ _)))) ?_
    · exact (range _).trans hr
    · refine (congrArg (Part.modConv · (Converter.rangeMoved f)) (Part.withRange_resulted
        { s.part.advanceTo (i.startedAt + ms * 1000) with conv := _ } f i _ _ .high)).trans ?_
      rw [conv]
      rfl
  case prompt =>
    have he : (s.part.advanceTo (i.startedAt + ms * 1000)).timeoutEnd f i = { verdict := .incomplete, reason := .noAnswer } := by
      rw [Part.timeoutEnd, hg]; rfl
    exact timeout (by rw [hb]; rfl) hms he (Part.releaseStep_prompt (later _) hg) (Part.modCon_modFx _ _ _ _ _)
  case reading =>
    refine (State.event_powered hp _).trans (congrArg (fun q => Host.Outcome.next (s.withPart q)) ?_)
    rw [Part.readingDue_some hi hg, Part.raiseRequest_busy
      (p := (s.part.advanceTo (due * 1000)).setProgress f (.quiescent last since none))
      ((congrArg (fun v : Converter => v.burst.isSome) (conv _)).trans (congrArg Option.isSome hburst))]
    rw [Part.setProgress, Part.modFx_fx, Part.modFx_congr (h := fun x =>
      { x with inflight := some { i with progress := .quiescent last since none } }) (by rw [later]; rfl), Part.modFx_conv, conv,
      Part.advanceTo_fx_run]

end Sys2Proof.Machine
end

section
/-! PROOFS. The failure policy after a failed step (section 1.3). -/

namespace Sys2Proof.Machine

open Sys2Proof

/-- SKIP over a queue without a MARK. -/
theorem Fixture.skip_all {x : Fixture} (h : ∀ st ∈ x.queue, st.body ≠ .mark) :
    x.skip = { x with queue := []
                      run := { x.run with skipped := min 65535 (x.run.skipped + x.queue.length), skipping := true } } := by
  have hany : x.queue.any Step.isMark = false := by
    rw [List.any_eq_false]
    exact fun st hst => by rw [Step.isMark_of_ne (h st hst)]; decide
  rw [Fixture.skip, hany]
  rfl

/-- SKIP over a queue with a MARK: it goes with everything before it. -/
theorem Fixture.skip_through {x : Fixture} {before after : List Step} {mark : Step} (hq : x.queue = before ++ mark :: after)
    (h : ∀ st ∈ before, st.body ≠ .mark) (hm : mark.body = .mark) :
    x.skip = { x with queue := after
                      run := { x.run with skipped := min 65535 (x.run.skipped + (before.length + 1)) } } := by
  have hmark : mark.isMark = true := (isMark_iff mark).mpr hm
  have hany : x.queue.any Step.isMark = true := by
    rw [hq, List.any_append, List.any_cons, hmark, Bool.true_or, Bool.or_true]
  have hdrop : x.queue.dropWhile (fun s => !s.isMark) = mark :: after := by
    rw [hq, List.dropWhile_append_of_pos fun st hst => by rw [Step.isMark_of_ne (h st hst)]; rfl,
      List.dropWhile_cons_of_neg (by rw [hmark]; decide)]
  have hlen : x.queue.length - after.length = before.length + 1 := by
    rw [hq, List.length_append, List.length_cons]
    omega
  rw [Fixture.skip, if_pos hany, hdrop]
  simp only [List.tail_cons, hlen, sat16]

/-- What a policy does on a failed result of an open run. -/
def Part.policyOn (f : FixtureIx) (k : Policy) (p : Part) : Part :=
  match k with
  | .cont => p
  | .skip => p.modFx f Fixture.skip
  | .stop => p.enterHalting f .policy

/-- A WAIT_FOR timeout: its result stands, the policy acts on it, and the head is examined. -/
theorem Part.stepTimedOut_waitFor {p : Part} {f : FixtureIx} {i : InFlight} {k : Condition} {ms : Nat}
    (hi : (p.fx f).inflight = some i) (hb : i.step.body = .waitFor k ms) (hms : ms ≠ 0) (hg : i.progress = .plain) :
    p.stepTimedOut f =
      ((((p.advanceTo (i.startedAt + ms * 1000)).modFx f fun x => x.withResult ((p.fx f).recordFor i.step i.startedAt
        (p.advanceTo (i.startedAt + ms * 1000)).uptime { verdict := .fail, reason := .timeout })).applyPolicy f .fail).runQueue f) := by
  have later : ((p.advanceTo (i.startedAt + ms * 1000)).fx f).inflight = some i := by simpa using hi
  have he : (p.advanceTo (i.startedAt + ms * 1000)).timeoutEnd f i = { verdict := .fail, reason := .timeout } := by
    rw [Part.timeoutEnd, hg]
  have hrec : ∀ e, ((p.advanceTo (i.startedAt + ms * 1000)).fx f).recordFor i.step i.startedAt
      (p.advanceTo (i.startedAt + ms * 1000)).uptime e = (p.fx f).recordFor i.step i.startedAt
      (p.advanceTo (i.startedAt + ms * 1000)).uptime e := fun e => by
    simp only [Fixture.recordFor, Part.advanceTo_fx_run]
  rw [Part.stepTimedOut_some hi (by rw [hb]; rfl) hms, he, Part.finish, Part.endStep, if_pos (by rw [later]; rfl), Part.closeStep, later]
  dsimp only
  rw [Part.finishStep_record later, Part.releaseStep_plain later hg, Part.modFx_congr
    (h := fun x => x.withResult ((p.fx f).recordFor i.step i.startedAt (p.advanceTo (i.startedAt + ms * 1000)).uptime
      { verdict := .fail, reason := .timeout })) (congrArg (Fixture.withResult _) (hrec _))]

/-- Settles O28, by the policy. -/
theorem failurePolicyActs : Obligations.FailurePolicyActs := by
  unfold Obligations.FailurePolicyActs
  intro s f i cond ms hp ho hi hb hms hg p r
  have hd : exec (.stepTimeout f) s =
      .next (s.withPart (((p.modFx f fun x => x.withResult r).applyPolicy f .fail).runQueue f)) :=
    (State.event_powered hp _).trans
      (congrArg (fun q => Host.Outcome.next (s.withPart q)) (Part.stepTimedOut_waitFor hi hb hms hg))
  have hpow : p.powered = true := (Part.advanceTo_powered _ _).trans hp
  have hx : (p.modFx f fun x => x.withResult r).fx f = (p.fx f).withResult r := Part.modFx_fx _ _ _
  have hrun : ((p.modFx f fun x => x.withResult r).fx f).run.isOpen = true := by
    rw [hx, show ((p.fx f).withResult r).run.isOpen = (p.fx f).run.isOpen from rfl, Part.advanceTo_fx_run]
    exact ho
  have hpolicy : ((p.modFx f fun x => x.withResult r).fx f).run.policy = (s.part.fx f).run.policy := by
    rw [hx, show ((p.fx f).withResult r).run.policy = (p.fx f).run.policy from rfl, Part.advanceTo_fx_run]
  have hqueue : ((p.fx f).withResult r).queue = (s.part.fx f).queue := Part.advanceTo_fx_queue _ _ _
  have acts : (p.modFx f fun x => x.withResult r).applyPolicy f .fail =
      (p.modFx f fun x => x.withResult r).policyOn f (s.part.fx f).run.policy := by
    rw [Part.applyPolicy, if_pos ⟨.inl rfl, hrun⟩, hpolicy]
    rfl
  have actsAs : ∀ {k}, (s.part.fx f).run.policy = k → (p.modFx f fun x => x.withResult r).applyPolicy f .fail =
      (p.modFx f fun x => x.withResult r).policyOn f k := fun hk => by rw [acts, hk]
  have examined : ∀ q : Part, q.powered = true → (p.modFx f fun x => x.withResult r).applyPolicy f .fail = q →
      exec (.stepTimeout f) s = exec (.stepStart f) (s.withPart q) := fun q hq he => by
    rw [hd, he, exec_stepStart (s := s.withPart q) hq]
    rfl
  refine ⟨fun hpol => ?cont, fun hpol hnone => ?skipAll, fun hpol before mark after hq hnone hm => ?skipThrough, fun hpol => ?stop⟩
  case cont => exact examined _ hpow (actsAs hpol)
  case skipAll =>
    refine examined _ hpow ((actsAs hpol).trans ((Part.modFx_modFx p f _ _).trans (Part.modFx_congr ?_)))
    rw [Fixture.skip_all (by rw [hqueue]; exact hnone)]
    rfl
  case skipThrough =>
    refine examined _ hpow ((actsAs hpol).trans ((Part.modFx_modFx p f _ _).trans (Part.modFx_congr ?_)))
    rw [Fixture.skip_through (hqueue.trans hq) hnone hm]
  case stop =>
    have hh := Part.enterHalting_halted hrun .policy
    refine ⟨_, ?_, hh⟩
    rw [hd, acts, hpol]
    exact congrArg (fun q => Host.Outcome.next (s.withPart q)) (Part.runQueue_closed hh.notOpen)

end Sys2Proof.Machine
end

section
/-! PROOFS. The switches of a fixture and the interlock (section 1.1). -/

namespace Sys2Proof.Machine

open Sys2Proof

theorem State.event_next {s : State} (hp : s.part.powered = true) {g : Part → Part} {q : Part} (h : g s.part = q) :
    s.event g = .next (s.withPart q) := by
  rw [State.event_powered hp, h]
  rfl

theorem State.atPin_next {s : State} {g : Part → Part} {q : Part} (h : g s.part = q) : s.atPin g = .next (s.withPart q) := by
  rw [State.atPin, h]
  rfl

/-! ## Raw changes -/

theorem redebounce_running {raw level : Bool} {due : Option Nat} {now : Nat} (h : ∀ t, due = some t → now < t) :
    redebounce raw level due now = (debounce raw level now, none) := by
  cases due with
  | none => rfl
  | some t => exact if_neg (by simpa using h t rfl)

theorem redebounce_over {raw level : Bool} {due : Option Nat} {now : Nat} (h : ∃ t, due = some t ∧ t ≤ now) :
    redebounce raw level due now = (due, debounce raw (!level) now) := by
  obtain ⟨t, rfl, ht⟩ := h
  exact if_pos (by simpa using ht)

section
variable {s : Sense} {v : Bool} {now : Nat}

theorem Sense.rawChange_same_presence (h : v = s.rawPresence) : s.rawChange .presence v now = s := if_pos h.symm

theorem Sense.rawChange_same_lid (h : v = s.rawLid) : s.rawChange .lid v now = s := if_pos h.symm

theorem Sense.rawChange_presence (h : v ≠ s.rawPresence) (hd : ∀ t, s.presenceDue = some t → now < t) :
    s.rawChange .presence v now =
      { s with rawPresence := v, presenceDue := if v = s.presence then none else some (now + 20000), presenceAfter := none } := by
  rw [Sense.rawChange, redebounce_running hd]
  exact if_neg h.symm

theorem Sense.rawChange_presence_late (h : v ≠ s.rawPresence) (hd : ∃ t, s.presenceDue = some t ∧ t ≤ now) :
    s.rawChange .presence v now =
      { s with rawPresence := v, presenceAfter := if v = !s.presence then none else some (now + 20000) } := by
  rw [Sense.rawChange, redebounce_over hd]
  exact if_neg h.symm

theorem Sense.rawChange_lid (h : v ≠ s.rawLid) (hd : ∀ t, s.lidDue = some t → now < t) :
    s.rawChange .lid v now =
      { s with rawLid := v, lidDue := if v = s.lid then none else some (now + 20000), lidAfter := none } := by
  rw [Sense.rawChange, redebounce_running hd]
  exact if_neg h.symm

theorem Sense.rawChange_lid_late (h : v ≠ s.rawLid) (hd : ∃ t, s.lidDue = some t ∧ t ≤ now) :
    s.rawChange .lid v now = { s with rawLid := v, lidAfter := if v = !s.lid then none else some (now + 20000) } := by
  rw [Sense.rawChange, redebounce_over hd]
  exact if_neg h.symm

end

/-- A fixture's switches as they are put. -/
def Part.withSense (f : FixtureIx) (v : Sense) (p : Part) : Part := p.modFx f fun x => { x with sense := v }

theorem Part.switchRaw_fitted {p : Part} {f : FixtureIx} {sw : Switch} {closed : Bool} (hp : p.powered = true) (hf : p.isFitted f = true)
    {v : Sense} (hv : (p.fx f).sense.rawChange sw closed p.clock = v) : p.switchRaw f sw closed = p.withSense f v := by
  refine Part.modFx_congr ?_
  rw [hp, hf, ← hv]
  rfl

theorem Part.switchRaw_pin {p : Part} {f : FixtureIx} (h : p.powered = false ∨ p.isFitted f = false) (closed : Bool) :
    p.switchRaw f .presence closed = p.withSense f { (p.fx f).sense with rawPresence := closed } ∧
      p.switchRaw f .lid closed = p.withSense f { (p.fx f).sense with rawLid := closed } := by
  have hn : ¬ (p.powered && p.isFitted f) = true := by rcases h with h | h <;> simp [h]
  refine ⟨Part.modFx_congr ?_, Part.modFx_congr ?_⟩ <;> rw [if_neg hn]

/-! ## The end of a debounce -/

theorem Part.interlock_idle {p : Part} {f : FixtureIx} (h : (p.fx f).run.state = .none ∨ (p.fx f).run.state = .ended)
    (text : List Byte) : p.interlock f text = p := by
  rcases h with h | h <;> simp [Part.interlock, Run.isOpen, h]

theorem Part.post_interlock_idle {p : Part} {f : FixtureIx} (h : (p.fx f).run.state = .none ∨ (p.fx f).run.state = .ended)
    (v : Sense) (n : Notice) (text : List Byte) : ((p.withSense f v).post n).interlock f text = (p.withSense f v).post n :=
  Part.interlock_idle (by rw [Part.post_fx, Part.withSense, Part.modFx_fx]; exact h) text

section
variable {p : Part} {f : FixtureIx}

theorem Part.lidSettled_quiet
    (h : (p.fx f).sense.lidTaken.lid = true ∨ (p.fx f).run.state = .none ∨ (p.fx f).run.state = .ended) :
    p.lidSettled f = (p.withSense f (p.fx f).sense.lidTaken).post
      (.fixtureSense f (p.fx f).sense.presence (p.fx f).sense.lidTaken.lid) := by
  have hq : (p.modFx f fun x => { x with sense := x.sense.lidTaken }).postSense f = (p.withSense f (p.fx f).sense.lidTaken).post
      (.fixtureSense f (p.fx f).sense.presence (p.fx f).sense.lidTaken.lid) := by
    rw [Part.postSense, Part.modFx_fx]
    rfl
  rw [Part.lidSettled_eq, hq]
  rcases h with h | h
  · exact if_pos h
  · dsimp only
    rw [Part.post_interlock_idle h, ite_self]

theorem Part.presenceSettled_quiet
    (h : (p.fx f).sense.presenceTaken.presence = true ∨ (p.fx f).run.state = .none ∨ (p.fx f).run.state = .ended) :
    p.presenceSettled f = (p.withSense f (p.fx f).sense.presenceTaken).post
      (.fixtureSense f (p.fx f).sense.presenceTaken.presence (p.fx f).sense.lid) := by
  have hq : (p.modFx f fun x => { x with sense := x.sense.presenceTaken }).postSense f =
      (p.withSense f (p.fx f).sense.presenceTaken).post
        (.fixtureSense f (p.fx f).sense.presenceTaken.presence (p.fx f).sense.lid) := by
    rw [Part.postSense, Part.modFx_fx]
    rfl
  rw [Part.presenceSettled_eq, hq]
  rcases h with h | h
  · exact if_pos h
  · dsimp only
    rw [Part.post_interlock_idle h, ite_self]

theorem Part.settleLid_some {t : Nat} (h : (p.fx f).sense.lidDue = some t) : p.settleLid f = (p.advanceTo t).lidSettled f := by
  rw [Part.settleLid, h]

theorem Sense.not_together {s : Sense} {t : Nat} (hp : s.presenceDue = some t) (h : ∀ u, s.lidDue = some u → t / 1000 ≠ u / 1000) :
    s.together = false := by
  unfold Sense.together
  rw [hp]
  cases hl : s.lidDue with
  | none => rfl
  | some u => exact decide_eq_false (h u hl)

theorem Part.settlePresence_alone {t : Nat} (hp : (p.fx f).sense.presenceDue = some t)
    (h : ∀ u, (p.fx f).sense.lidDue = some u → t / 1000 ≠ u / 1000) :
    p.settlePresence f = (p.advanceTo t).presenceSettled f := by
  have hn := Sense.not_together hp h
  have hat : (p.fx f).sense.presenceAt = some t := by rw [Sense.presenceAt, if_neg (by rw [hn]; decide), hp]
  simp only [Part.settlePresence, hat, Part.advanceTo_fx_sense, hn, Bool.false_eq_true, if_false]

theorem Part.settlePresence_both {t u : Nat} (hp : (p.fx f).sense.presenceDue = some t) (hl : (p.fx f).sense.lidDue = some u)
    (h : t / 1000 = u / 1000) :
    p.settlePresence f = ((p.advanceTo (max t u)).lidSettled f).presenceSettled f := by
  have ht : (p.fx f).sense.together = true := by
    rw [Sense.together, hp, hl]
    exact decide_eq_true h
  have hat : (p.fx f).sense.presenceAt = some (max t u) := by rw [Sense.presenceAt, if_pos ht, hp, hl]; rfl
  simp only [Part.settlePresence, hat, Part.advanceTo_fx_sense, ht, if_true]

theorem Part.settleLid_none (h : (p.fx f).sense.lidDue = none) : p.settleLid f = p := by rw [Part.settleLid, h]

theorem Part.settlePresence_none (h : (p.fx f).sense.presenceDue = none) : p.settlePresence f = p := by
  have ht : (p.fx f).sense.together = false := by rw [Sense.together, h]
  have hat : (p.fx f).sense.presenceAt = none := by rw [Sense.presenceAt, if_neg (by rw [ht]; decide), h]
  rw [Part.settlePresence, hat]

end

theorem Part.withSense_post_withSense (p : Part) (f : FixtureIx) (v w : Sense) (n : Notice) :
    ((p.withSense f v).post n).withSense f w = (p.withSense f w).post n :=
  congrArg (Part.post n) (Part.modFx_modFx p f (fun x => { x with sense := v }) fun x => { x with sense := w })

/-- Settles O29: a raw change by the debounce that runs, an end by the levels it gives. -/
theorem switchesAreDebounced : Obligations.SwitchesAreDebounced := by
  unfold Obligations.SwitchesAreDebounced
  intro s f sense put now debounced presence lid idle
  have same : ∀ {v}, v = sense → s.part.withSense f v = s.part := fun h => Part.modFx_self (by rw [h])
  have later : ∀ t, ((s.part.advanceTo t).fx f).sense = sense := fun t => Part.advanceTo_fx_sense _ _ _
  have laterRun : ∀ t, idle → ((s.part.advanceTo t).fx f).run.state = .none ∨ ((s.part.advanceTo t).fx f).run.state = .ended :=
    fun t h => by rw [Part.advanceTo_fx_run]; exact h
  refine ⟨fun v h => ⟨State.atPin_next (Part.switchRaw_pin h v).1, State.atPin_next (Part.switchRaw_pin h v).2⟩,
    fun hp => ⟨fun v hf => ⟨fun hv hd => ?_, fun hv hd => ?_, fun hv hd => ?_, fun hv hd => ?_, fun hv => ?_, fun hv => ?_⟩,
      fun h => State.event_next hp (Part.settleLid_none h), fun h => State.event_next hp (Part.settlePresence_none h),
      fun t hd h => ?lid, fun t hd ht h => ?presence, fun t u hd hl ht h => ?both⟩⟩
  · exact State.atPin_next (Part.switchRaw_fitted hp hf (Sense.rawChange_presence hv hd))
  · exact State.atPin_next (Part.switchRaw_fitted hp hf (Sense.rawChange_presence_late hv hd))
  · exact State.atPin_next (Part.switchRaw_fitted hp hf (Sense.rawChange_lid hv hd))
  · exact State.atPin_next (Part.switchRaw_fitted hp hf (Sense.rawChange_lid_late hv hd))
  · exact State.atPin_next ((Part.switchRaw_fitted hp hf (Sense.rawChange_same_presence hv)).trans (same rfl))
  · exact State.atPin_next ((Part.switchRaw_fitted hp hf (Sense.rawChange_same_lid hv)).trans (same rfl))
  case lid =>
    have hq := Part.lidSettled_quiet (p := s.part.advanceTo t) (f := f) (h.imp (fun h => by rw [later]; exact h) (laterRun t))
    rw [later] at hq
    exact State.event_next hp ((Part.settleLid_some hd).trans hq)
  case presence =>
    have hq := Part.presenceSettled_quiet (p := s.part.advanceTo t) (f := f) (h.imp (fun h => by rw [later]; exact h) (laterRun t))
    rw [later] at hq
    exact State.event_next hp ((Part.settlePresence_alone hd ht).trans hq)
  case both =>
    have hlid := Part.lidSettled_quiet (p := s.part.advanceTo (max t u)) (f := f)
      (h.imp (fun h => by rw [later]; exact h.2) (laterRun _))
    rw [later] at hlid
    refine State.event_next hp ((Part.settlePresence_both hd hl ht).trans ?_)
    rw [hlid]
    have hs : (((s.part.advanceTo (max t u)).withSense f sense.lidTaken).post (.fixtureSense f sense.presence sense.lidTaken.lid)).fx f =
        { (s.part.advanceTo (max t u)).fx f with sense := sense.lidTaken } := by rw [Part.post_fx, Part.withSense, Part.modFx_fx]
    rw [Part.presenceSettled_quiet (by rw [hs]; exact h.imp And.left (laterRun _)), hs, Part.withSense_post_withSense]
    rfl

end Sys2Proof.Machine
end

section
/-! PROOFS. A supply that is cut, and the interlock that cuts it (sections 1.1 and 3.2). -/

namespace Sys2Proof.Machine

open Sys2Proof

/-! ## A supply that leaves its live states -/

/-- A step in flight that has heard its below_since cleared. -/
def InFlight.unbelow (i : InFlight) : InFlight :=
  match i.progress with
  | .quiescent last _ due => { i with progress := .quiescent last none due }
  | _ => i

theorem InFlight.unbelow_unbelow (i : InFlight) : i.unbelow.unbelow = i.unbelow := by
  cases h : i.progress <;> simp [InFlight.unbelow, h]

theorem InFlight.unbelow_step (i : InFlight) : i.unbelow.step = i.step ∧ i.unbelow.startedAt = i.startedAt := by
  cases h : i.progress <;> simp [InFlight.unbelow, h]

/-- A fixture whose step in flight has heard its below_since cleared. -/
def Fixture.unbelow (x : Fixture) : Fixture := { x with inflight := x.inflight.map InFlight.unbelow }

/-- A fixture with its current range at HIGH and its below_since cleared. -/
def Fixture.highRange (x : Fixture) : Fixture := { x.unbelow with supply := { x.supply with range := .high } }

theorem Part.clearBelow_eq (p : Part) (f : FixtureIx) : p.clearBelow f = p.modFx f Fixture.unbelow := by
  refine Part.modFx_congr ?_
  generalize p.fx f = x
  obtain ⟨_, _, _, _, _, inflight, _, _, _, _, _⟩ := x
  cases inflight with
  | none => rfl
  | some i =>
    obtain ⟨_, _, g⟩ := i
    cases g <;> rfl

theorem Part.modConv_modFx (p : Part) (f : FixtureIx) (v : Converter → Converter) (g : Fixture → Fixture) :
    (p.modConv v).modFx f g = (p.modFx f g).modConv v := rfl

/-- The converter when a fixture's range returns to HIGH. -/
def Part.convHigh (p : Part) (f : FixtureIx) : Converter := if (p.fx f).supply.range = .low then p.conv.rangeMoved f else p.conv

/-- The range back at HIGH and below_since cleared, as the converter and the step see it. -/
theorem Part.rangeHigh_clearBelow (p : Part) (f : FixtureIx) :
    (p.rangeHigh f).clearBelow f = { p.modFx f Fixture.highRange with conv := p.convHigh f } := by
  rw [Part.clearBelow_eq, Part.rangeHigh, Part.convHigh]
  split
  · have twice : ∀ x : Fixture, Fixture.unbelow (Fixture.unbelow { x with supply := { x.supply with range := .high } }) = x.highRange :=
      fun x => by
        simp only [Fixture.unbelow, Fixture.highRange, Option.map_map, Function.comp_def, InFlight.unbelow_unbelow]
    rw [Part.changeRange_eq, Part.clearBelow_eq, Part.modConv_modFx, Part.modConv_modFx, Part.modSupply, Part.modFx_modFx,
      Part.modFx_modFx]
    exact congrArg (Part.modConv · (Converter.rangeMoved f)) (Part.modFx_congr (twice _))
  · rename_i h
    have hr : (p.fx f).supply.range = .high := by cases hx : (p.fx f).supply.range <;> simp_all
    exact Part.modFx_congr (by rw [Fixture.highRange, ← hr]; rfl)

/-- A supply that is disconnected with a trip_reason. -/
def Supply.cutWith (r : TripReason) (now : Nat) (s : Supply) : Supply :=
  { s with
    state := if s.below500 then (if r = .none then .off else .tripped) else .discharge
    tripReason := r, range := .high, since := now, atLimit := false
    residual := if s.below500 = true ∧ r ≠ .none then false else s.residual }

/-- A fixture whose supply is disconnected. -/
def Fixture.cutWith (r : TripReason) (now : Nat) (x : Fixture) : Fixture := { x.unbelow with supply := x.supply.cutWith r now }

/-- A disconnection, whole: the supply, the step in flight and the converter. -/
theorem Part.disconnect_whole (p : Part) (f : FixtureIx) (r : TripReason) :
    p.disconnect f r = { p.modFx f (Fixture.cutWith r p.clock) with conv := p.convHigh f } := by
  obtain ⟨_, _, _, e⟩ := p.disconnect_eq f r
  rw [e, Part.rangeHigh_clearBelow]
  exact Part.modFx_modFx { p with conv := p.convHigh f } f _ _

theorem Part.disconnect_fx (p : Part) (f : FixtureIx) (r : TripReason) :
    (p.disconnect f r).fx f = (p.fx f).cutWith r p.clock := by
  rw [Part.disconnect_whole]
  exact Part.modFx_fx p f _

theorem Part.convHigh_requests (p : Part) (f : FixtureIx) :
    (p.convHigh f).requests = p.conv.requests ∧ (p.convHigh f).cref = p.conv.cref ∧ (p.convHigh f).refFault = p.conv.refFault := by
  unfold Part.convHigh
  split <;> exact ⟨rfl, rfl, rfl⟩

theorem Supply.cutWith_notLive (r : TripReason) (now : Nat) (s : Supply) : (s.cutWith r now).live = false := by
  rw [Supply.live, Supply.cutWith]
  cases s.below500 <;> cases r <;> rfl

theorem Supply.cutWith_none (now : Nat) (s : Supply) :
    s.cutWith .none now = { s with state := if s.below500 then .off else .discharge, tripReason := .none, range := .high, since := now
                                   atLimit := false } := by
  simp [Supply.cutWith]

theorem Part.disconnect_fx_ne (p : Part) {f g : FixtureIx} (r : TripReason) (h : g ≠ f) : (p.disconnect f r).fx g = p.fx g := by
  rw [Part.disconnect_whole]
  exact Part.modFx_fx_ne p _ h

/-- A run that halts with its supply disconnected before: it has halted as one whose supply is cut on the way. -/
theorem Part.Halted.of_disconnect {p q : Part} {f : FixtureIx} {r : HaltReason} (hl : (p.fx f).supply.live = true)
    (h : (p.disconnect f .none).Halted f r q) (hr : (q.fx f).supply.range = .high) : p.Halted f r q := by
  have hx := p.disconnect_fx f .none
  have hrun : ((p.disconnect f .none).fx f).run = (p.fx f).run := by rw [hx]; rfl
  have hsup : ((p.disconnect f .none).fx f).supply = (p.fx f).supply.cutWith .none p.clock := by rw [hx]; rfl
  have hin : ((p.disconnect f .none).fx f).inflight = (p.fx f).inflight.map InFlight.unbelow := by rw [hx]; rfl
  have hnone : ((p.disconnect f .none).fx f).inflight = none ↔ (p.fx f).inflight = none := by rw [hin, Option.map_eq_none_iff]
  have hkept := h.supplyKept (by rw [hsup]; exact Supply.cutWith_notLive _ _ _)
  have hconv : (p.disconnect f .none).conv = p.convHigh f := by rw [Part.disconnect_whole]
  obtain ⟨hreq, hcref, hfault⟩ := p.convHigh_requests f
  have hch : ∀ c, (p.disconnect f .none).ch c = p.ch c := fun c => by rw [Part.disconnect_whole]; rfl
  have hcon : ∀ k, (p.disconnect f .none).con k = p.con k := fun k => by rw [Part.disconnect_whole]; rfl
  have huptime : (p.disconnect f .none).uptime = p.uptime := by rw [Part.disconnect_whole]; rfl
  obtain ⟨request, requests, cref, refFault⟩ := h.request
  obtain ⟨console, consoles⟩ := h.console
  exact
    { state := h.state
      reason := h.reason
      verdict := by rw [h.verdict, hrun]; simp only [hnone]
      counts := by
        obtain ⟨skipped, skipping, steps⟩ := h.counts
        exact ⟨by rw [skipped, hx]; rfl, skipping, by rw [steps, hrun]; simp only [hnone]⟩
      record := by rw [← hrun]; exact h.record
      steps := h.steps
      log := by
        rw [h.log, hin, hrun, huptime, hx]
        cases (p.fx f).inflight with
        | none => rfl
        | some i =>
          obtain ⟨hstep, hstart⟩ := i.unbelow_step
          simp only [Option.map_some, hstep, hstart]
          rfl
      outputs := by rw [h.outputs.1, hx]; exact ⟨rfl, h.outputs.2⟩
      port := by
        have hp : ((p.disconnect f .none).fx f).port = (p.fx f).port := by rw [hx]; rfl
        rw [← hp]
        exact h.port
      supplyCut := fun _ => by
        rw [hsup] at hkept
        rw [← Supply.cutWith_none, ← hkept]
        have hrange : ((p.fx f).supply.cutWith .none p.clock).range = (q.fx f).supply.range := by rw [hr]; rfl
        rw [hrange]
      supplyKept := fun k => absurd hl (by rw [k]; decide)
      sense := by rw [h.sense.1, h.sense.2, hx]; exact ⟨rfl, rfl⟩
      others := fun g hg => (h.others g hg).trans (p.disconnect_fx_ne .none hg)
      bound := fun c => by rw [← hch]; exact h.bound c
      unbound := fun c => by rw [← hch]; exact h.unbound c
      request := by
        refine ⟨request, fun g hg => (requests g hg).trans ?_, by rw [cref, hconv, hcref], by rw [refFault, hconv, hfault]⟩
        rw [hconv, Converter.req, hreq]
        rfl
      console := ⟨by rw [console, hcon], fun k hk => (consoles k hk).trans (hcon k)⟩
      rest := by
        have e := h.rest
        rw [Part.disconnect_whole] at e
        exact (congrArg (fun t : Part => { t with fixtures := p.fixtures, conv := p.conv }) e :) }

/-- A run that halts once its supply has been cut has halted as one whose supply is cut on the way. -/
theorem Part.cutSupply_halted {p : Part} {f : FixtureIx} (ho : (p.fx f).run.isOpen = true) (r : HaltReason) :
    p.Halted f r ((p.cutSupply f).enterHalting f r) := by
  cases hl : (p.fx f).supply.live with
  | false => rw [Part.cutSupply, hl]; exact Part.enterHalting_halted ho r
  | true =>
    have hrun := p.disconnect_run f .none
    have hcut : p.cutSupply f = p.disconnect f .none := by
      rw [Part.cutSupply, if_pos hl, Part.endRun_of_ne (by rw [hrun]; exact Run.state_ne_halting ho)]
    have ho' : ((p.disconnect f .none).fx f).run.isOpen = true := by rw [hrun]; exact ho
    rw [hcut]
    refine Part.Halted.of_disconnect hl (Part.enterHalting_halted ho' r) ?_
    obtain ⟨_, rg, hrg, hfx⟩ := Part.enterHalting_fx ho' r
    have hhigh : rg = .high := hrg.elim (fun e => by rw [e, Part.disconnect_fx]; rfl) id
    rw [hfx, hhigh]
    dsimp only
    split <;> rfl

/-! ## The interlock (R4) -/

theorem Part.interlock_open {p : Part} {f : FixtureIx} (ho : (p.fx f).run.isOpen = true) (text : List Byte) :
    p.interlock f text = ((p.cutSupply f).enterHalting f .lid).giveSafety f text := if_pos ho

theorem Part.interlock_halting {p : Part} {f : FixtureIx} (hs : (p.fx f).run.state = .halting) (text : List Byte) :
    p.interlock f text = p.cutSupply f := by
  have hn : (p.fx f).run.isOpen = false := by simp [Run.isOpen, hs]
  rw [Part.interlock, hn, hs]
  rfl

/-- A supply cut in HALTING: it is no longer live, and the run ends with it if its output is below 500 mV. -/
theorem Part.cutSupply_halting {p : Part} {f : FixtureIx} (hs : (p.fx f).run.state = .halting) :
    ((p.cutSupply f).fx f).supply.live = false ∧ ((p.cutSupply f).fx f).run.haltReason = (p.fx f).run.haltReason ∧
      (∀ k, (p.cutSupply f).con k = p.con k) ∧ (∀ g, g ≠ f → (p.cutSupply f).fx g = p.fx g) ∧
      ((p.fx f).supply.live = true → ((p.cutSupply f).fx f).supply.tripReason = .none ∧
        ((p.cutSupply f).fx f).supply.state = (if (p.fx f).supply.below500 then .off else .discharge) ∧
        ((p.cutSupply f).fx f).run.state = (if (p.fx f).supply.below500 then .ended else .halting)) := by
  cases hl : (p.fx f).supply.live with
  | false =>
    have e : p.cutSupply f = p := by rw [Part.cutSupply, hl]; rfl
    rw [e]
    exact ⟨hl, rfl, fun _ => rfl, fun _ _ => rfl, nofun⟩
  | true =>
    have e : p.cutSupply f = (p.disconnect f .none).endRun f := by rw [Part.cutSupply, if_pos hl]
    have hx := p.disconnect_fx f .none
    have hcon : ∀ k, (p.disconnect f .none).con k = p.con k := fun k => by rw [Part.disconnect_whole]; rfl
    have hother : ∀ g, g ≠ f → (p.disconnect f .none).fx g = p.fx g := fun g hg => p.disconnect_fx_ne .none hg
    rw [e]
    generalize p.disconnect f .none = q at hx hcon hother
    have hsup : (q.fx f).supply = _ := (congrArg Fixture.supply hx).trans (Supply.cutWith_none _ _)
    have hrun : (q.fx f).run = (p.fx f).run := by rw [hx]; rfl
    cases hb : (p.fx f).supply.below500 with
    | true =>
      have hend : q.endRun f = (q.modFx f fun x => { x with run := { x.run with state := .ended }, port := x.port.shut }).postRunState f :=
        if_pos ⟨by rw [hrun, hs], .inl (by rw [hsup, hb]; rfl)⟩
      have hfx : (q.endRun f).fx f = { q.fx f with run := { (q.fx f).run with state := .ended }, port := (q.fx f).port.shut } := by
        rw [hend, Part.postRunState, Part.post_fx, Part.modFx_fx]
      refine ⟨?_, ?_, fun k => ?_, fun g hg => ?_, fun _ => ⟨?_, ?_, ?_⟩⟩
      · rw [hfx, Supply.live]; dsimp only; rw [hsup, hb]; rfl
      · rw [hfx]; exact (congrArg Run.haltReason hrun :)
      · rw [hend, Part.postRunState, Part.post_con, Part.modFx_con, hcon]
      · rw [hend, Part.postRunState, Part.post_fx, Part.modFx_fx_ne _ _ hg, hother g hg]
      · rw [hfx]; dsimp only; rw [hsup]
      · rw [hfx]; dsimp only; rw [hsup, hb]
      · rw [hfx]; rfl
    | false =>
      have hend : q.endRun f = q := if_neg fun k => by
        rw [hsup, hb] at k
        exact k.2.elim nofun nofun
      rw [hend]
      exact ⟨by rw [hsup, hb]; rfl, by rw [hrun], hcon, hother, fun _ => ⟨by rw [hsup], by rw [hsup, hb], by rw [hrun]; exact hs⟩⟩

/-- What the interlock makes of a switch that has opened. -/
theorem Part.interlock_acts {p : Part} {f : FixtureIx} (v : Sense) (n : Notice) (text : List Byte) :
    ((p.fx f).run.isOpen = true → ∃ q, (p.withSense f v).Halted f .lid q ∧
      ((p.withSense f v).post n).interlock f text = q.giveSafety f text) ∧
    ((p.fx f).run.state = .halting → ∃ q, ((p.withSense f v).post n).interlock f text = q ∧ (q.fx f).supply.live = false ∧
      (q.fx f).run.haltReason = (p.fx f).run.haltReason ∧ (∀ k, q.con k = p.con k) ∧
      (∀ g, g ≠ f → q.fx g = (p.withSense f v).fx g) ∧
      ((p.fx f).supply.live = true → (q.fx f).supply.tripReason = .none ∧
        (q.fx f).supply.state = (if (p.fx f).supply.below500 then .off else .discharge) ∧
        (q.fx f).run.state = (if (p.fx f).supply.below500 then .ended else .halting))) := by
  have hx : ((p.withSense f v).post n).fx f = { p.fx f with sense := v } := by rw [Part.post_fx, Part.withSense, Part.modFx_fx]
  refine ⟨fun ho => ?_, fun hs => ?_⟩
  · have ho' : (((p.withSense f v).post n).fx f).run.isOpen = true := by rw [hx]; exact ho
    refine ⟨_, ?_, Part.interlock_open ho' text⟩
    exact (Part.cutSupply_halted ho' .lid).of_start (st := (((p.withSense f v).post n).fx f).run.state) rfl (fun _ _ => rfl) rfl
  · have hs' : (((p.withSense f v).post n).fx f).run.state = .halting := by rw [hx]; exact hs
    obtain ⟨hlive, hreason, hcon, hother, hcut⟩ := Part.cutSupply_halting hs'
    rw [hx] at hreason hcut
    exact ⟨_, Part.interlock_halting hs' text, hlive, hreason, fun k => (hcon k).trans rfl, hother, hcut⟩

theorem Part.lidSettled_open {p : Part} {f : FixtureIx} (h : (p.fx f).sense.lidTaken.lid = false) :
    p.lidSettled f = ((p.withSense f (p.fx f).sense.lidTaken).post
      (.fixtureSense f (p.fx f).sense.presence (p.fx f).sense.lidTaken.lid)).interlock f textLidOpen := by
  have hq : (p.modFx f fun x => { x with sense := x.sense.lidTaken }).postSense f = (p.withSense f (p.fx f).sense.lidTaken).post
      (.fixtureSense f (p.fx f).sense.presence (p.fx f).sense.lidTaken.lid) := by
    rw [Part.postSense, Part.modFx_fx]
    rfl
  rw [Part.lidSettled_eq, hq]
  exact if_neg (by rw [h]; decide)

theorem Part.presenceSettled_gone {p : Part} {f : FixtureIx} (h : (p.fx f).sense.presenceTaken.presence = false) :
    p.presenceSettled f = ((p.withSense f (p.fx f).sense.presenceTaken).post
      (.fixtureSense f (p.fx f).sense.presenceTaken.presence (p.fx f).sense.lid)).interlock f textUnitRemoved := by
  have hq : (p.modFx f fun x => { x with sense := x.sense.presenceTaken }).postSense f =
      (p.withSense f (p.fx f).sense.presenceTaken).post
        (.fixtureSense f (p.fx f).sense.presenceTaken.presence (p.fx f).sense.lid) := by
    rw [Part.postSense, Part.modFx_fx]
    rfl
  rw [Part.presenceSettled_eq, hq]
  exact if_neg (by rw [h]; decide)

theorem settledLevel_eq_false {raw : Bool} {after : Option Nat} (h : raw = after.isSome) : settledLevel raw after = false := by
  rw [settledLevel, h, bne_self_eq_false]

/-- Settles O30: the cut precedes the halt. -/
theorem interlockHaltsTheRun : Obligations.InterlockHaltsTheRun := by
  unfold Obligations.InterlockHaltsTheRun
  intro s f sw t hp hsw
  have hx : ((s.part.advanceTo t).fx f).sense = (s.part.fx f).sense := Part.advanceTo_fx_sense _ _ _
  have key : ∀ (v : Sense) (n : Notice) (text : List Byte), s.part.senseDebounced f sw =
      (((s.part.advanceTo t).withSense f v).post n).interlock f text →
      ((s.part.fx f).run.isOpen = true → ∃ q, ((s.part.advanceTo t).withSense f v).Halted f .lid q ∧
        exec (.fixtureSenseDebounced f sw) s = .next (s.withPart (q.giveSafety f text))) ∧
      ((s.part.fx f).run.state = .halting → ∃ q, exec (.fixtureSenseDebounced f sw) s = .next (s.withPart q) ∧
        (q.fx f).supply.live = false ∧ (q.fx f).run.haltReason = (s.part.fx f).run.haltReason ∧ (∀ k, q.con k = s.part.con k) ∧
        (∀ g, g ≠ f → q.fx g = ((s.part.advanceTo t).withSense f v).fx g) ∧
        ((s.part.fx f).supply.live = true → (q.fx f).supply.tripReason = .none ∧
          (q.fx f).supply.state = (if (s.part.fx f).supply.below500 then .off else .discharge) ∧
          (q.fx f).run.state = (if (s.part.fx f).supply.below500 then .ended else .halting))) := by
    intro v n text he
    have hrun : ((s.part.advanceTo t).fx f).run = (s.part.fx f).run := Part.advanceTo_fx_run _ _ _
    have hsup : ((s.part.advanceTo t).fx f).supply = (s.part.fx f).supply := Part.advanceTo_fx_supply _ _ _
    obtain ⟨hopen, hhalting⟩ := Part.interlock_acts (p := s.part.advanceTo t) (f := f) v n text
    rw [hrun, hsup] at hhalting
    rw [hrun] at hopen
    refine ⟨fun ho => ?_, fun hs => ?_⟩
    · obtain ⟨q, hq, e⟩ := hopen ho
      exact ⟨q, hq, State.event_next hp (he.trans e)⟩
    · obtain ⟨q, e, hlive, hreason, hcon, hother, hcut⟩ := hhalting hs
      exact ⟨q, State.event_next hp (he.trans e), hlive, hreason, fun k => (hcon k).trans (Part.advanceTo_con _ _ _), hother, hcut⟩
  cases sw with
  | lid =>
    obtain ⟨hd, hraw⟩ := hsw
    have hl : ((s.part.advanceTo t).fx f).sense.lidTaken.lid = false := by rw [hx]; exact settledLevel_eq_false hraw
    have hv : ((s.part.advanceTo t).fx f).sense.lidTaken = { ((s.part.advanceTo t).fx f).sense with
        lid := false, lidDue := ((s.part.advanceTo t).fx f).sense.lidAfter, lidAfter := none } := by rw [← hl]; rfl
    have e := Part.lidSettled_open hl
    rw [hv] at e
    exact key _ _ _ ((Part.settleLid_some hd).trans e)
  | presence =>
    obtain ⟨hd, ht, hraw⟩ := hsw
    have hl : ((s.part.advanceTo t).fx f).sense.presenceTaken.presence = false := by rw [hx]; exact settledLevel_eq_false hraw
    have hv : ((s.part.advanceTo t).fx f).sense.presenceTaken = { ((s.part.advanceTo t).fx f).sense with
        presence := false, presenceDue := ((s.part.advanceTo t).fx f).sense.presenceAfter, presenceAfter := none } := by
      rw [← hl]; rfl
    have e := Part.presenceSettled_gone hl
    rw [hv] at e
    exact key _ _ _ ((Part.settlePresence_alone hd ht).trans e)

end Sys2Proof.Machine
end

section
/-! PROOFS. CLEAR_FAULT, and the comparators of a supply (sections 3.3 to 3.6). -/

namespace Sys2Proof.Machine

open Sys2Proof

/-! ## CLEAR_FAULT (R67) -/

section
variable {p : Part} {f : FixtureIx}

theorem Part.clearFault_unfitted (hf : p.isFitted f = false) : p.clearFault [BitVec.ofNat 8 f.val] = p.refuse .notFitted :=
  Part.ofFixture_unfitted hf _

theorem Part.clearFault_fitted (hf : p.isFitted f = true) :
    p.clearFault [BitVec.ofNat 8 f.val] =
      if (p.fx f).supply.state = .tripped then
        if (p.fx f).supply.residual && !(p.fx f).supply.below500 then p.refuse .wrongState (le8 (p.fx f).supply.state.code)
        else (p.releaseTrip f).accept (le8 ((p.releaseTrip f).fx f).supply.state.code)
      else (p.removeSafety f).accept (le8 (p.fx f).supply.state.code) :=
  Part.ofFixture_fitted hf _

theorem Part.asked_removeSafety (p : Part) (a b : Byte) (f : FixtureIx) :
    (p.asked a b).removeSafety f = (p.removeSafety f).asked a b := by
  unfold Part.removeSafety
  cases consoleFor f <;> rfl

/-- A supply whose trip is released. -/
def Supply.released (now : Nat) (s : Supply) : Supply := { s with state := .off, tripReason := .none, residual := false, since := now }

/-- A released trip: the supply is OFF and the SAFETY entry gone before the notice. -/
theorem Part.releaseTrip_eq (p : Part) (f : FixtureIx) :
    p.releaseTrip f = ((p.modFx f fun x => { x with supply := x.supply.released p.clock }).removeSafety f).post
      (.supplyEvent f .cleared .off .none false) := by
  have hoff : (p.enterSupply f .off).modSupply f (fun s => { s with tripReason := .none, residual := false }) =
      p.modFx f fun x => { x with supply := x.supply.released p.clock } := by
    rw [Part.enterSupply, Part.modSupply, Part.modSupply]
    exact Part.modFx_modFx p f _ _
  rw [Part.releaseTrip, hoff, Part.postSupplyEvent, Part.removeSafety, Part.modCon_fx, Part.modFx_fx]
  rfl

end

/-- Settles O31, by the state of the supply. -/
theorem clearFaultReleasesTheTrip : Obligations.ClearFaultReleasesTheTrip := by
  unfold Obligations.ClearFaultReleasesTheTrip
  intro s tag f hl hroom c u dropped
  have fitted : s.part.isFitted f = true → _ := fun hf => Part.clearFault_fitted (p := s.part.asked 0x20 tag) (f := f) hf
  refine ⟨fun hf => ?_, fun hf hs hr => ?_, fun hf hs hr hb => ?_, fun hf hs => ?_⟩
  · exact request_refused hl (by decide) (Part.clearFault_unfitted (p := s.part.asked 0x20 tag) hf)
  · have hres : ¬ ((u.residual && !u.below500) = true) := by
      rcases hr with h | h <;> simp [h]
    let d : Part := dropped (s.part.modFx f fun x => { x with supply := x.supply.released s.part.clock })
    have hlink : d.link = s.part.link := Part.modCon_link _ _ _
    let r : Part := d.noticed [.supplyEvent f .cleared .off .none false]
    have hrel : (s.part.asked 0x20 tag).releaseTrip f = r.asked 0x20 tag := by
      rw [Part.releaseTrip_eq, Part.asked_modFx, Part.asked_removeSafety]
      exact Part.asked_post_room (p := d) (by rw [hlink]; exact hroom) _ _ _
    have hoff : ((r.asked 0x20 tag).fx f).supply.state = .off := by
      have hx : (r.asked 0x20 tag).fx f = { s.part.fx f with supply := u.released s.part.clock } := by
        show (dropped (s.part.modFx f _)).fx f = _
        rw [Part.modCon_fx, Part.modFx_fx]
      rw [hx]; rfl
    refine request_answered hl (by decide) r ((fitted hf).trans ((if_pos hs).trans ((if_neg hres).trans ?_)))
      (show d.link.tx = .free by rw [hlink]; exact hl.free) (show d.link.frameBuf = none by rw [hlink]; exact hl.noRequest)
      (show d.link.reply = none by rw [hlink]; exact hl.noReply)
    rw [hrel, hoff]; rfl
  · have hres : (u.residual && !u.below500) = true := by rw [hr, hb]; rfl
    refine request_refused hl (by decide) ((fitted hf).trans ((if_pos hs).trans ((if_pos hres).trans ?_)))
    rw [show ((s.part.asked 0x20 tag).fx f).supply.state = .tripped from hs]
    rfl
  · have hlink : (dropped s.part).link = s.part.link := Part.modCon_link _ _ _
    refine request_answered hl (by decide) (dropped s.part) ((fitted hf).trans ((if_neg hs).trans ?_))
      (by rw [hlink]; exact hl.free) (by rw [hlink]; exact hl.noRequest) (by rw [hlink]; exact hl.noReply)
    rw [Part.asked_removeSafety]
    rfl

end Sys2Proof.Machine
end

section
/-! PROOFS. The comparators of a supply (sections 3.3, 3.4 and 3.6). -/

namespace Sys2Proof.Machine

open Sys2Proof

/-! ## A supply set as it stands -/

/-- A fixture's supply set. -/
def Part.withSupply (f : FixtureIx) (v : Supply) (p : Part) : Part := p.modFx f fun x => { x with supply := v }

/-- A fixture's supply set, with below_since cleared. -/
def Part.withSupplyTold (f : FixtureIx) (v : Supply) (p : Part) : Part :=
  p.modFx f fun x => { x with supply := v, inflight := x.inflight.map InFlight.unbelow }

section
variable {p : Part} {f : FixtureIx}

theorem Part.modSupply_eq (p : Part) (f : FixtureIx) (g : Supply → Supply) :
    p.modSupply f g = p.withSupply f (g (p.fx f).supply) := Part.modFx_congr rfl

theorem Part.withSupply_fx (p : Part) (f : FixtureIx) (v : Supply) : (p.withSupply f v).fx f = { p.fx f with supply := v } :=
  Part.modFx_fx p f _

theorem Part.withSupply_withSupply (p : Part) (f : FixtureIx) (v w : Supply) : (p.withSupply f v).withSupply f w = p.withSupply f w :=
  Part.modFx_modFx p f _ _

theorem Part.withSupply_told (p : Part) (f : FixtureIx) (v w : Supply) :
    (p.withSupply f v).withSupplyTold f w = p.withSupplyTold f w := Part.modFx_modFx p f _ _

theorem Part.told_withSupply (p : Part) (f : FixtureIx) (v w : Supply) :
    (p.withSupplyTold f v).withSupply f w = p.withSupplyTold f w := Part.modFx_modFx p f _ _

theorem Part.enterSupply_eq (p : Part) (f : FixtureIx) (st : SupplyState) :
    p.enterSupply f st = p.withSupply f { (p.fx f).supply with state := st, since := p.clock } := Part.modSupply_eq p f _

/-! ## The range's return, and LIMIT -/

theorem Part.rangeHigh_of_high (h : (p.fx f).supply.range = .high) : p.rangeHigh f = p := by
  rw [Part.rangeHigh, h]; rfl

theorem Part.rangeHigh_of_low (h : (p.fx f).supply.range = .low) :
    p.rangeHigh f = { p.withSupplyTold f { (p.fx f).supply with range := .high } with conv := p.conv.rangeMoved f } := by
  rw [Part.rangeHigh, if_pos h, Part.changeRange_eq, Part.clearBelow_eq, Part.modConv_modFx, Part.modSupply_eq]
  exact congrArg (Part.modConv · (Converter.rangeMoved f)) (Part.modFx_modFx p f _ _)

theorem Part.enterLimit_of_high (h : (p.fx f).supply.range = .high) :
    p.enterLimit f = p.withSupplyTold f { (p.fx f).supply with state := .limit, since := p.clock } := by
  rw [Part.enterLimit, Part.rangeHigh_of_high h, Part.clearBelow_eq, Part.enterSupply, Part.modSupply, Part.modFx_modFx]
  exact Part.modFx_congr rfl

theorem Part.enterLimit_of_low (h : (p.fx f).supply.range = .low) :
    p.enterLimit f =
      { p.withSupplyTold f { (p.fx f).supply with state := .limit, since := p.clock, range := .high } with
        conv := p.conv.rangeMoved f } := by
  have hc : p.convHigh f = p.conv.rangeMoved f := if_pos h
  rw [Part.enterLimit, Part.rangeHigh_clearBelow, hc, Part.enterSupply, Part.modSupply]
  refine (Part.modFx_modFx { p with conv := p.conv.rangeMoved f } f _ _).trans ?_
  exact Part.modFx_congr rfl

/-! ## The entry to ON -/

/-- A WAIT_FOR SUPPLY_ON is met. -/
def Part.onMet (rq : Examine) (f : FixtureIx) (p : Part) : Part :=
  if (p.fx f).waitingFor = some .supplyOn then p.endStep rq f .passed else p

theorem Fixture.waitingFor_eq_some {x : Fixture} {k : Condition} :
    x.waitingFor = some k ↔ ∃ i, x.inflight = some i ∧ ∃ ms, i.step.body = .waitFor k ms := by
  unfold Fixture.waitingFor
  constructor
  · intro h
    split at h
    · rename_i i hi
      split at h
      · rename_i k' ms hb
        cases h
        exact ⟨i, hi, ms, hb⟩
      · cases h
    · cases h
  · rintro ⟨i, hi, ms, hb⟩
    simp only [hi, hb]

theorem Part.onMet_unmet (rq : Examine)
    (h : ∀ i, (p.fx f).inflight = some i → ¬ ∃ ms, i.step.body = .waitFor .supplyOn ms) : p.onMet rq f = p :=
  if_neg fun k => by
    obtain ⟨i, hi, hw⟩ := Fixture.waitingFor_eq_some.mp k
    exact h i hi hw

theorem Part.onMet_met {i : InFlight} (hi : (p.fx f).inflight = some i) (hw : ∃ ms, i.step.body = .waitFor .supplyOn ms)
    (hg : i.progress = .plain) (ha : (p.fx f).run.state = .active) (hq : (p.fx f).queue = []) :
    p.onMet Part.runQueue f = p.modFx f fun x =>
      x.withResult (x.recordFor i.step i.startedAt p.uptime { verdict := .pass, reason := .none }) := by
  have h : p.onMet Part.runQueue f = p.finish f .passed := if_pos (Fixture.waitingFor_eq_some.mpr ⟨i, hi, hw⟩)
  rw [h, Part.finish_quiet hi (.inr ⟨by decide, by decide⟩) ha hq, Part.releaseStep_plain hi hg]
  rfl

/-- The current is held at a soft-start limit that is the limit itself. -/
def Supply.heldAtLimit (s : Supply) : Bool := s.atLimit && decide (s.softStart = s.limit)

/-- What the entry to ON makes of a supply on its HIGH range: ON, or LIMIT. -/
def Part.onEntered (f : FixtureIx) (v : Supply) (p : Part) : Part :=
  if v.heldAtLimit then p.withSupplyTold f { v with state := .limit, since := p.clock }
  else p.withSupply f { v with state := .on, since := p.clock, atLimit := false }

theorem Part.enterOn_withSupply (rq : Examine) {v : Supply} (hr : v.heldAtLimit = true → v.range = .high) :
    (p.withSupply f v).enterOn rq f = (p.onEntered f v).onMet rq f := by
  have hon : ((p.withSupply f v).enterSupply f .on).limitAtOn f =
      p.withSupply f { v with state := .on, since := p.clock, atLimit := v.heldAtLimit } := by
    rw [Part.enterSupply_eq, Part.withSupply_fx, Part.withSupply_withSupply, Part.limitAtOn, Part.modSupply_eq, Part.withSupply_fx,
      Part.withSupply_withSupply]
    rfl
  rw [Part.enterOn, hon, Part.withSupply_fx]
  dsimp only
  rw [Part.onEntered]
  cases hh : v.heldAtLimit with
  | false => rfl
  | true =>
    have hl : (p.withSupply f { v with state := .on, since := p.clock, atLimit := true }).enterLimit f =
        p.withSupplyTold f { v with state := .limit, since := p.clock } := by
      rw [Part.enterLimit_of_high (by rw [Part.withSupply_fx]; exact hr hh), Part.withSupply_fx, Part.withSupply_told]
      have ha : v.atLimit = true := (Bool.and_eq_true _ _ |>.mp hh).1
      rw [← ha]
      rfl
    simp only [if_true, hl]
    rfl

theorem Part.onEntered_fx (p : Part) (f : FixtureIx) (v : Supply) :
    ((p.onEntered f v).fx f).run = (p.fx f).run ∧ ((p.onEntered f v).fx f).queue = (p.fx f).queue ∧
      (((p.onEntered f v).fx f).inflight = (p.fx f).inflight ∨
        ((p.onEntered f v).fx f).inflight = (p.fx f).inflight.map InFlight.unbelow) ∧
      (p.onEntered f v).uptime = p.uptime := by
  unfold Part.onEntered
  split
  · rw [Part.withSupplyTold, Part.modFx_fx]; exact ⟨rfl, rfl, .inr rfl, rfl⟩
  · rw [Part.withSupply, Part.modFx_fx]; exact ⟨rfl, rfl, .inl rfl, rfl⟩

theorem Part.backToOn_eq (rq : Examine) (p : Part) (f : FixtureIx) :
    p.backToOn rq f = (p.withSupply f { (p.fx f).supply with state := .on, since := p.clock, atLimit := false }).onMet rq f := by
  have h : (p.enterSupply f .on).modSupply f (fun s => { s with atLimit := false }) =
      p.withSupply f { (p.fx f).supply with state := .on, since := p.clock, atLimit := false } := by
    rw [Part.enterSupply_eq, Part.modSupply_eq, Part.withSupply_fx, Part.withSupply_withSupply]
  rw [Part.backToOn, h]
  rfl

/-! ## The comparators -/

/-- A supply with its in-regulation comparator at a level. -/
def Supply.regulated (holds : Bool) (s : Supply) : Supply :=
  { s with inRegulation := holds, below500 := s.below500 && !(holds && decide (3000 ≤ s.setpoint)) }

theorem Supply.regulated_true (s : Supply) :
    s.regulated true = { s with inRegulation := true, below500 := s.below500 && decide (s.setpoint < 3000) } := by
  have h : (!(true && decide (3000 ≤ s.setpoint))) = decide (s.setpoint < 3000) := by
    rw [Bool.true_and, ← decide_not]
    exact decide_eq_decide.mpr (by omega)
  rw [Supply.regulated, h]

theorem Supply.regulated_false (s : Supply) : s.regulated false = { s with inRegulation := false } := by
  simp [Supply.regulated]

theorem Part.regulation_pinned (h : (p.fx f).supply.setpoint = 0) : p.regulation f false = p := if_pos ⟨rfl, h⟩

theorem Part.regulation_moves {holds : Bool} (h : ¬ (holds = false ∧ (p.fx f).supply.setpoint = 0)) :
    p.regulation f holds =
      if p.powered = true ∧ holds = true ∧ (p.fx f).supply.state = .ramp then
        (p.withSupply f ((p.fx f).supply.regulated holds)).enterOn Part.runQueue f
      else p.withSupply f ((p.fx f).supply.regulated holds) := by
  have hs : ((p.withSupply f ((p.fx f).supply.regulated holds)).fx f).supply.state = (p.fx f).supply.state := by
    rw [Part.withSupply_fx]; rfl
  rw [← hs, ← show p.modSupply f (Supply.regulated holds) = _ from Part.modSupply_eq p f _]
  exact if_neg h

theorem Part.regulation_clears (h : (p.fx f).supply.setpoint ≠ 0) :
    p.regulation f false = p.withSupply f ((p.fx f).supply.regulated false) := by
  rw [Part.regulation_moves fun k => h k.2, if_neg fun k => nomatch k.2.1]

theorem Part.regulation_still (h : (p.fx f).supply.state ≠ .ramp) :
    p.regulation f true = p.withSupply f ((p.fx f).supply.regulated true) := by
  rw [Part.regulation_moves (holds := true) (fun k => by simp at k), if_neg fun k => h k.2.2]

theorem Part.regulation_ramp (hp : p.powered = true) (hs : (p.fx f).supply.state = .ramp) (hr : (p.fx f).supply.range = .high) :
    p.regulation f true = (p.onEntered f ((p.fx f).supply.regulated true)).onMet Part.runQueue f := by
  rw [Part.regulation_moves (holds := true) (fun k => by simp at k), if_pos ⟨hp, rfl, hs⟩]
  exact Part.enterOn_withSupply Part.runQueue (v := (p.fx f).supply.regulated true) fun _ => hr

theorem Part.limitHolds_dead (h : (p.fx f).supply.live = false) : p.limitHolds f = p := by
  rw [Part.limitHolds, h]; rfl

theorem Part.limitHolds_live (h : (p.fx f).supply.live = true) :
    p.limitHolds f =
      if (p.fx f).supply.state = .on then (p.withSupply f { (p.fx f).supply with atLimit := true }).enterLimit f
      else p.withSupply f { (p.fx f).supply with atLimit := true } := by
  have hs : ∀ v : Supply, ((p.withSupply f v).fx f).supply.state = v.state := fun v => by rw [Part.withSupply_fx]
  rw [Part.limitHolds, if_pos h, Part.modSupply_eq]
  dsimp only
  rw [hs]

theorem Part.limitClears_eq (p : Part) (f : FixtureIx) :
    p.limitClears f =
      if (p.fx f).supply.state = .limit then
        (p.withSupply f { (p.fx f).supply with atLimit := false, state := .on, since := p.clock }).onMet Part.runQueue f
      else p.withSupply f { (p.fx f).supply with atLimit := false } := by
  have hb : (p.withSupply f { (p.fx f).supply with atLimit := false }).backToOn Part.runQueue f =
      (p.withSupply f { (p.fx f).supply with atLimit := false, state := .on, since := p.clock }).onMet Part.runQueue f := by
    rw [Part.backToOn_eq, Part.withSupply_fx, Part.withSupply_withSupply]
    rfl
  have hs : ∀ v : Supply, ((p.withSupply f v).fx f).supply.state = v.state := fun v => by rw [Part.withSupply_fx]
  rw [Part.limitClears, Part.modSupply_eq, ← hb]
  dsimp only
  rw [hs]

end

theorem Supply.live_of {s : Supply} (h : s.state = .ramp ∨ s.state = .on ∨ s.state = .limit) : s.live = true := by
  rcases h with h | h | h <;> rw [Supply.live, h] <;> rfl

/-- Settles O32, comparator by comparator: each report sets its level and then acts by the state. -/
theorem comparatorsMoveTheSupply : Obligations.ComparatorsMoveTheSupply := by
  unfold Obligations.ComparatorsMoveTheSupply
  intro s f hp u put now up hears told toHigh reading waiting passes
  have hup : u.regulated true = up := Supply.regulated_true u
  have hout : u.regulated false = { u with inRegulation := false } := Supply.regulated_false u
  have hmet : ∀ (q : Part) (i : InFlight), (q.fx f).inflight = some i → waiting i → i.progress = .plain →
      (q.fx f).run.state = .active → (q.fx f).queue = [] → q.uptime = s.part.uptime → q.onMet Part.runQueue f = passes i q := by
    intro q i hi hw hg ha hq hup
    rw [Part.onMet_met hi hw hg ha hq, hup]
  refine ⟨fun h => ?_, fun h => ?_, fun h => ?_, fun hs hr => ?_, fun h => ?_, fun h => ?_, fun h hr => ?_, fun hlaw hr => ?_,
    fun h => ?_, fun h => ⟨fun hw => ?_, fun ha hq i hi hw hg => ?_⟩, fun h => ?_⟩
  · exact State.atPin_next ((Part.regulation_still h).trans (by rw [hup]; rfl))
  · exact State.atPin_next ((Part.regulation_clears h).trans (by rw [hout]; rfl))
  · exact State.atPin_next (q := s.part) (Part.regulation_pinned h)
  · have hreg := Part.regulation_ramp (f := f) hp hs hr
    rw [hup] at hreg
    obtain ⟨hrun, hqueue, hinfl, huptime⟩ := s.part.onEntered_fx f up
    refine ⟨fun hw => State.atPin_next (hreg.trans (Part.onMet_unmet _ fun i hi hb => ?_)),
      fun ha hq i hi hw hg => State.atPin_next (hreg.trans (hmet _ i ?_ hw hg (by rw [hrun, ha]) (by rw [hqueue, hq]) huptime))⟩
    · rcases hinfl with e | e
      · exact hw i (e.symm.trans hi) hb
      · obtain ⟨j, hj, rfl⟩ := Option.map_eq_some_iff.mp (e.symm.trans hi)
        rw [j.unbelow_step.1] at hb
        exact hw j hj hb
    · have hsame : i.unbelow = i := by rw [InFlight.unbelow, hg]
      rcases hinfl with e | e
      · exact e.trans hi
      · rw [e, hi, Option.map_some, hsame]
  · exact State.event_next hp (q := s.part) (Part.limitHolds_dead h)
  · have hlive : u.live = true := Supply.live_of (h.imp id .inr)
    exact State.event_next hp ((Part.limitHolds_live hlive).trans (if_neg fun k => by rw [k] at h; exact h.elim nofun nofun))
  · have hlive : u.live = true := Supply.live_of (.inr (.inl h))
    refine State.event_next hp ((Part.limitHolds_live hlive).trans ((if_pos h).trans ?_))
    rw [Part.enterLimit_of_high (by rw [Part.withSupply_fx]; exact hr), Part.withSupply_fx, Part.withSupply_told]
    rfl
  · obtain ⟨hon, hread⟩ := hlaw f hr
    have hlive : u.live = true := Supply.live_of (.inr (.inl hon))
    refine ⟨hon, hread, State.event_next hp ((Part.limitHolds_live hlive).trans ((if_pos hon).trans ?_)),
      State.event_next hp ((Part.rangeHigh_of_low hr).trans rfl)⟩
    rw [Part.enterLimit_of_low (by rw [Part.withSupply_fx]; exact hr), Part.withSupply_fx, Part.withSupply_told]
    rfl
  · exact State.event_next hp ((Part.limitClears_eq _ _).trans (if_neg h))
  · refine State.event_next hp ((Part.limitClears_eq _ _).trans ((if_pos h).trans (Part.onMet_unmet _ fun i hi => hw i ?_)))
    rw [← hi, Part.withSupply_fx]
  · refine State.event_next hp ((Part.limitClears_eq _ _).trans ((if_pos h).trans (hmet _ i ?_ hw hg ?_ ?_ rfl)))
    all_goals rw [Part.withSupply_fx]; assumption
  · exact State.event_next hp (q := s.part) (Part.rangeHigh_of_high h)

end Sys2Proof.Machine
end

section
/-! PROOFS. Supplies that trip, and discharges that end (sections 3.3 to 3.5). -/

namespace Sys2Proof.Machine

open Sys2Proof

/-! ## A HALTING run ends with its supply -/

section
variable {p q : Part} {f : FixtureIx}

/-- The supply is OFF or TRIPPED, and a HALTING run ends. -/
def Supply.isDown (s : Supply) : Prop := s.state = .off ∨ s.state = .tripped

/-- What a HALTING run becomes with its supply down. -/
def Part.runEnded (f : FixtureIx) (p : Part) : Part :=
  (p.modFx f fun x => { x with run := { x.run with state := .ended }, port := x.port.shut }).post
    (.runState f .ended (p.fx f).run.verdict (p.fx f).run.haltReason)

theorem Part.endRun_ends (hs : (p.fx f).run.state = .halting) (h : (p.fx f).supply.isDown) : p.endRun f = p.runEnded f := by
  rw [Part.endRun, if_pos ⟨hs, h⟩, Part.postRunState, Part.modFx_fx]
  rfl

theorem Part.endRun_up (h : ¬ (p.fx f).supply.isDown) : p.endRun f = p := if_neg fun k => h k.2

theorem Part.runEnded_fx (p : Part) (f : FixtureIx) :
    (p.runEnded f).fx f = { p.fx f with run := { (p.fx f).run with state := .ended }, port := (p.fx f).port.shut } := by
  rw [Part.runEnded, Part.post_fx, Part.modFx_fx]

theorem Part.runEnded_fx_ne (p : Part) {g : FixtureIx} (h : g ≠ f) : (p.runEnded f).fx g = p.fx g := by
  rw [Part.runEnded, Part.post_fx, Part.modFx_fx_ne _ _ h]

/-! ## The halt that a trip requests -/

/-- What the halt request of a trip, and the end of the run, make of a part whose supply has left its live states. -/
structure Part.TripHalted (f : FixtureIx) (p q : Part) : Prop where
  clock : q.clock = p.clock
  rack : q.rack = p.rack
  powered : q.powered = p.powered
  supply : (q.fx f).supply = (p.fx f).supply
  others : ∀ g, g ≠ f → q.fx g = p.fx g
  top : ∀ e rest, e.isSafety = true → (p.con (consoleFor f)).entries = e :: rest →
    ∃ rest', (q.con (consoleFor f)).entries = e :: rest' ∧ ∀ x ∈ rest', x ∈ rest
  opened : (p.fx f).run.isOpen = true →
    (q.fx f).run.haltReason = .supplyTrip ∧ (q.fx f).queue = [] ∧ (q.fx f).inflight = none ∧
    (q.fx f).run.verdict = (p.fx f).run.verdict.max .incomplete ∧
    ((p.fx f).supply.isDown → (q.fx f).run.state = .ended) ∧ (¬ (p.fx f).supply.isDown → (q.fx f).run.state = .halting)
  closed : (p.fx f).run.isOpen = false →
    { (q.fx f).run with state := (p.fx f).run.state } = (p.fx f).run ∧
    ((p.fx f).run.state = .halting → (p.fx f).supply.isDown → (q.fx f).run.state = .ended) ∧
    (¬ ((p.fx f).run.state = .halting ∧ (p.fx f).supply.isDown) → (q.fx f).run.state = (p.fx f).run.state)

theorem Part.enterHalting_supplyKept (ho : (p.fx f).run.isOpen = true) (r : HaltReason) (hl : (p.fx f).supply.live = false)
    (hr : (p.fx f).supply.range = .high) : ((p.enterHalting f r).fx f).supply = (p.fx f).supply := by
  obtain ⟨c, rg, hrg, hx⟩ := Part.enterHalting_fx ho r
  have hrg' : rg = (p.fx f).supply.range := hrg.elim id fun e => e.trans hr.symm
  have hs := congrArg Fixture.supply hx
  dsimp only at hs
  rw [hs, hl, hrg']
  rfl

theorem Part.enterHalting_tripHalted (ho : (p.fx f).run.isOpen = true) (hl : (p.fx f).supply.live = false)
    (hr : (p.fx f).supply.range = .high) : p.TripHalted f ((p.enterHalting f .supplyTrip).endRun f) := by
  have h := Part.enterHalting_halted ho .supplyTrip
  have hs := Part.enterHalting_supplyKept ho .supplyTrip hl hr
  generalize p.enterHalting f .supplyTrip = q at h hs
  have hstate := h.state
  rw [hs] at hstate
  have hend : q.endRun f = q := by
    by_cases hd : (p.fx f).supply.isDown
    · exact Part.endRun_of_ne (by rw [hstate.trans (if_pos hd)]; decide)
    · exact Part.endRun_up (by rw [hs]; exact hd)
  rw [hend]
  obtain ⟨hqueue, hinflight, _⟩ := h.steps
  exact
    { clock := h.clock
      rack := (congrArg Part.rack h.rest :)
      powered := (congrArg Part.powered h.rest :)
      supply := hs
      others := h.others
      top := fun e rest he hc => by
        refine ⟨rest.filter fun x => !(x.owner = f && !x.isSafety), ?_, fun x hx => List.mem_of_mem_filter hx⟩
        rw [h.console.1, hc, List.filter_cons_of_pos]
        rw [he, Bool.not_true, Bool.and_false, Bool.not_false]
      opened := fun _ => ⟨h.reason, hqueue, hinflight, by rw [h.verdict, if_neg fun k => nomatch k.1],
        fun hd => hstate.trans (if_pos hd), fun hd => hstate.trans (if_neg hd)⟩
      closed := fun k => absurd ho (by rw [k]; decide) }

theorem Part.endRun_tripHalted (ho : (p.fx f).run.isOpen = false) : p.TripHalted f (p.endRun f) := by
  by_cases h : (p.fx f).run.state = .halting ∧ (p.fx f).supply.isDown
  · rw [Part.endRun_ends h.1 h.2]
    have hx := p.runEnded_fx f
    have hcon : ∀ k, (p.runEnded f).con k = p.con k := fun k => Part.post_con _ _ k
    exact
      { clock := rfl
        rack := rfl
        powered := rfl
        supply := by rw [hx]
        others := fun g hg => p.runEnded_fx_ne hg
        top := fun e rest _ hc => ⟨rest, by rw [hcon, hc], fun _ hx => hx⟩
        opened := fun k => absurd k (by rw [ho]; decide)
        closed := fun _ => ⟨by rw [hx], fun _ _ => by rw [hx], fun k => absurd h k⟩ }
  · have hend : p.endRun f = p := if_neg h
    rw [hend]
    exact
      { clock := rfl
        rack := rfl
        powered := rfl
        supply := rfl
        others := fun _ _ => rfl
        top := fun e rest _ hc => ⟨rest, hc, fun _ hx => hx⟩
        opened := fun k => absurd k (by rw [ho]; decide)
        closed := fun _ => ⟨rfl, fun hs hd => absurd ⟨hs, hd⟩ h, fun _ => rfl⟩ }

theorem Part.haltRequest_tripHalted (hl : (p.fx f).supply.live = false) (hr : (p.fx f).supply.range = .high) :
    p.TripHalted f ((p.haltRequest f .supplyTrip).endRun f) := by
  cases ho : (p.fx f).run.isOpen with
  | true => rw [Part.haltRequest_open ho]; exact Part.enterHalting_tripHalted ho hl hr
  | false => rw [Part.haltRequest_closed ho]; exact Part.endRun_tripHalted ho

/-! ## A live supply trips -/

/-- A tripped supply before its halt request: disconnected, reported, and its SAFETY entry at the top. -/
def Part.tripShown (f : FixtureIx) (r : TripReason) (p : Part) : Part :=
  ((p.disconnect f r).postSupplyEvent f .trip).giveSafety f (textTrip r)

theorem Part.tripSupply_eq (p : Part) (f : FixtureIx) (r : TripReason) :
    p.tripSupply f r = ((p.tripShown f r).haltRequest f .supplyTrip).endRun f := rfl

theorem Part.tripShown_fx (p : Part) (f : FixtureIx) (r : TripReason) : (p.tripShown f r).fx f = (p.fx f).cutWith r p.clock := by
  rw [Part.tripShown, Part.giveSafety_fx, Part.postSupplyEvent, Part.post_fx, Part.disconnect_fx]

theorem Part.tripShown_fx_ne (p : Part) (r : TripReason) {g : FixtureIx} (h : g ≠ f) : (p.tripShown f r).fx g = p.fx g := by
  rw [Part.tripShown, Part.giveSafety_fx, Part.postSupplyEvent, Part.post_fx, Part.disconnect_fx_ne _ _ h]

/-- A SAFETY entry stands at the top, over the others of its console but for its fixture's earlier one. -/
theorem Part.giveSafety_entries (p : Part) (f : FixtureIx) (text : List Byte) :
    ((p.giveSafety f text).con (consoleFor f)).entries =
      { id := (p.con (consoleFor f)).nextId, owner := f, cls := .safety, text := text } ::
        (p.con (consoleFor f)).entries.filter fun e => !(e.owner = f && e.isSafety) := by
  rw [Part.giveSafety, Part.modCon_con]

theorem Part.tripShown_rest (p : Part) (f : FixtureIx) (r : TripReason) :
    (p.tripShown f r).clock = p.clock ∧ (p.tripShown f r).rack = p.rack ∧ (p.tripShown f r).powered = p.powered := by
  rw [Part.tripShown, Part.disconnect_whole]
  unfold Part.giveSafety
  cases consoleFor f <;> exact ⟨rfl, rfl, rfl⟩

theorem Part.tripSupply_tripHalted (p : Part) (f : FixtureIx) (r : TripReason) :
    (p.tripShown f r).TripHalted f (p.tripSupply f r) := by
  have hx := p.tripShown_fx f r
  exact Part.haltRequest_tripHalted (by rw [hx]; exact Supply.cutWith_notLive _ _ _) (by rw [hx]; rfl)

theorem Supply.cutWith_isDown (s : Supply) (r : TripReason) (now : Nat) : (s.cutWith r now).isDown ↔ s.below500 = true := by
  unfold Supply.isDown Supply.cutWith
  dsimp only
  cases s.below500 <;> cases r <;> simp

/-- What a trip makes of a part. -/
theorem Part.tripSupply_facts (p : Part) (f : FixtureIx) (r : TripReason) :
    let q := p.tripSupply f r
    q.clock = p.clock ∧ q.rack = p.rack ∧ (q.fx f).supply = (p.fx f).supply.cutWith r p.clock ∧ (∀ g, g ≠ f → q.fx g = p.fx g) ∧
      (∃ n rest, (q.con (consoleFor f)).entries = { id := n, owner := f, cls := .safety, text := textTrip r } :: rest ∧
        ∀ e ∈ rest, ¬ (e.owner = f ∧ e.isSafety = true)) ∧
      ((p.fx f).run.isOpen = true →
        (q.fx f).run.haltReason = .supplyTrip ∧ (q.fx f).queue = [] ∧ (q.fx f).inflight = none ∧
        (q.fx f).run.verdict = (p.fx f).run.verdict.max .incomplete ∧
        (q.fx f).run.state = if (p.fx f).supply.below500 then .ended else .halting) ∧
      ((p.fx f).run.isOpen = false →
        { (q.fx f).run with state := (p.fx f).run.state } = (p.fx f).run ∧
        (q.fx f).run.state =
          if (p.fx f).run.state = .halting ∧ (p.fx f).supply.below500 = true then .ended else (p.fx f).run.state) := by
  intro q
  have h : (p.tripShown f r).TripHalted f q := p.tripSupply_tripHalted f r
  have hx := p.tripShown_fx f r
  have hdown : ((p.tripShown f r).fx f).supply.isDown ↔ (p.fx f).supply.below500 = true := by
    rw [hx]; exact Supply.cutWith_isDown _ _ _
  have hrun : ((p.tripShown f r).fx f).run = (p.fx f).run := by rw [hx]; rfl
  have hopened := h.opened
  have hclosed := h.closed
  rw [hrun, hdown] at hopened hclosed
  obtain ⟨hclock, hrack, _⟩ := p.tripShown_rest f r
  refine ⟨h.clock.trans hclock, h.rack.trans hrack, by rw [h.supply, hx]; rfl, fun g hg => (h.others g hg).trans (p.tripShown_fx_ne r hg),
    ?_, fun ho => ?_, fun ho => ?_⟩
  · obtain ⟨rest, he, hrest⟩ := h.top _ _ rfl (Part.giveSafety_entries _ _ _)
    exact ⟨_, rest, he, fun e he' k => by
      have := List.of_mem_filter (hrest e he')
      rw [k.2, decide_eq_true k.1] at this
      exact absurd this (by decide)⟩
  · obtain ⟨hreason, hqueue, hinflight, hverdict, hended, hhalting⟩ := hopened ho
    refine ⟨hreason, hqueue, hinflight, hverdict, ?_⟩
    split
    next hb => exact hended hb
    next hb => exact hhalting hb
  · obtain ⟨hsame, hended, hkept⟩ := hclosed ho
    refine ⟨hsame, ?_⟩
    split
    next hb => exact hended hb.1 hb.2
    next hb => exact hkept hb

/-! ## Discharges -/

/-- The supply as the below-500 mV comparator leaves it. -/
def Supply.seenBelow (holds : Bool) (s : Supply) : Supply :=
  { s with below500 := holds, inRegulation := s.inRegulation && !(holds && decide (3000 ≤ s.setpoint)) }

theorem Part.below_eq (hp : p.powered = true) (holds : Bool) :
    p.below f holds = ((p.withSupply f ((p.fx f).supply.seenBelow holds)).endDischarge f).endRun f := by
  rw [Part.below, show p.modSupply f (fun s => { s with
    below500 := holds, inRegulation := s.inRegulation && !(holds && decide (3000 ≤ s.setpoint)) }) = _ from Part.modSupply_eq p f _]
  exact if_pos hp

/-- A discharge's end: in OFF, or in TRIPPED with a trip that is pending. -/
theorem Part.endDischarge_ends {v : Supply} (hs : v.state = .discharge) (hb : v.below500 = true) :
    (p.withSupply f v).endDischarge f = p.withSupply f { v with
      state := if v.tripReason = .none then .off else .tripped, since := p.clock
      residual := if v.tripReason = .none then v.residual else false } := by
  have hx := p.withSupply_fx f v
  rw [Part.endDischarge, if_pos (by rw [hx]; exact ⟨hs, hb⟩), hx, Part.enterSupply_eq, hx, Part.withSupply_withSupply]
  dsimp only
  split
  · rfl
  · rw [Part.enterSupply_eq, hx, Part.withSupply_withSupply, Part.modSupply_eq, Part.withSupply_fx, Part.withSupply_withSupply]
    rfl

theorem Part.endDischarge_goesOn (h : ¬ ((p.fx f).supply.state = .discharge ∧ (p.fx f).supply.below500 = true)) :
    p.endDischarge f = p := if_neg h

/-- The supply of a discharge that failed. -/
def Supply.stuck (now : Nat) (s : Supply) : Supply :=
  { s with state := .tripped, residual := true, since := now, tripReason := if s.tripReason = .none then .rack else s.tripReason }

/-- A residual reported, with its SAFETY entry at the top. -/
def Part.residualShown (f : FixtureIx) (r : TripReason) (p : Part) : Part :=
  (p.postSupplyEvent f .residual).giveSafety f (textResidual r)

theorem Part.stuck_eq (p : Part) (f : FixtureIx) :
    (p.enterSupply f .tripped).modSupply f (fun s =>
      { s with residual := true, tripReason := if s.tripReason = .none then .rack else s.tripReason }) =
    p.withSupply f ((p.fx f).supply.stuck p.clock) := by
  rw [Part.enterSupply_eq, Part.modSupply_eq, Part.withSupply_fx, Part.withSupply_withSupply]
  rfl

/-- A first trip: its own report precedes the residual's. -/
theorem Part.dischargeFailed_fresh (h : (p.fx f).supply.tripReason = .none) :
    p.dischargeFailed f =
      ((((((p.withSupply f ((p.fx f).supply.stuck p.clock)).postSupplyEvent f .trip).giveSafety f (textTrip .rack)).residualShown f
        .rack).haltRequest f .supplyTrip).endRun f) := by
  have hr : ((p.withSupply f ((p.fx f).supply.stuck p.clock)).fx f).supply.tripReason = .rack := by
    rw [Part.withSupply_fx, Supply.stuck, h]; rfl
  unfold Part.dischargeFailed
  dsimp only
  rw [Part.stuck_eq, hr, h]
  rfl

theorem Part.dischargeFailed_pending (h : (p.fx f).supply.tripReason ≠ .none) :
    p.dischargeFailed f =
      ((p.withSupply f ((p.fx f).supply.stuck p.clock)).residualShown f (p.fx f).supply.tripReason).endRun f := by
  have hr : ((p.withSupply f ((p.fx f).supply.stuck p.clock)).fx f).supply.tripReason = (p.fx f).supply.tripReason := by
    rw [Part.withSupply_fx, Supply.stuck, if_neg h]
  unfold Part.dischargeFailed
  dsimp only
  rw [Part.stuck_eq, hr]
  simp only [h, decide_false, Bool.false_eq_true, if_false]
  rfl

theorem Part.residualShown_fx (p : Part) (f g : FixtureIx) (r : TripReason) : (p.residualShown f r).fx g = p.fx g := by
  rw [Part.residualShown, Part.giveSafety_fx, Part.postSupplyEvent, Part.post_fx]

theorem Part.giveSafety_rest (p : Part) (f : FixtureIx) (t : List Byte) :
    (p.giveSafety f t).clock = p.clock ∧ (p.giveSafety f t).powered = p.powered := by
  unfold Part.giveSafety
  cases consoleFor f <;> exact ⟨rfl, rfl⟩

theorem Part.residualShown_rest (p : Part) (f : FixtureIx) (r : TripReason) :
    (p.residualShown f r).clock = p.clock ∧ (p.residualShown f r).powered = p.powered :=
  Part.giveSafety_rest (p.postSupplyEvent f .residual) f _

theorem Supply.stuck_notLive (now : Nat) (s : Supply) : (s.stuck now).live = false := rfl

/-- A discharge that fails: a part with the residual shown, which then halts if the trip is the first. -/
theorem Part.dischargeFailed_shown (hr : (p.fx f).supply.range = .high) :
    ∃ m : Part, (∀ g, m.fx g = (p.withSupply f ((p.fx f).supply.stuck p.clock)).fx g) ∧ m.clock = p.clock ∧ m.powered = p.powered ∧
      (∃ n rest, (m.con (consoleFor f)).entries = { id := n, owner := f, cls := .safety
                                                    text := textResidual ((p.fx f).supply.stuck p.clock).tripReason } :: rest) ∧
      (m.TripHalted f (p.dischargeFailed f) ∨
        (p.fx f).supply.tripReason ≠ .none ∧ (p.fx f).run.isOpen = true ∧ p.dischargeFailed f = m) := by
  have top : ∀ (q : Part) (r : TripReason), ∃ n rest, ((q.residualShown f r).con (consoleFor f)).entries =
      { id := n, owner := f, cls := .safety, text := textResidual r } :: rest := fun q r => ⟨_, _, Part.giveSafety_entries _ _ _⟩
  by_cases h : (p.fx f).supply.tripReason = .none
  · have hreason : ((p.fx f).supply.stuck p.clock).tripReason = .rack := by rw [Supply.stuck, h]; rfl
    obtain ⟨htop, htopP⟩ := ((p.withSupply f ((p.fx f).supply.stuck p.clock)).postSupplyEvent f .trip).giveSafety_rest f (textTrip .rack)
    have hfx : ∀ g, (((p.withSupply f ((p.fx f).supply.stuck p.clock)).postSupplyEvent f .trip).giveSafety f (textTrip .rack)).fx g =
        (p.withSupply f ((p.fx f).supply.stuck p.clock)).fx g := fun g => by
      rw [Part.giveSafety_fx, Part.postSupplyEvent, Part.post_fx]
    rw [Part.dischargeFailed_fresh h, hreason]
    generalize ((p.withSupply f ((p.fx f).supply.stuck p.clock)).postSupplyEvent f .trip).giveSafety f (textTrip .rack) =
        n at htop htopP hfx
    have hm : ∀ g, (n.residualShown f .rack).fx g = (p.withSupply f ((p.fx f).supply.stuck p.clock)).fx g := fun g => by
      rw [Part.residualShown_fx, hfx]
    obtain ⟨hc, hp⟩ := n.residualShown_rest f .rack
    refine ⟨_, hm, hc.trans htop, hp.trans htopP, top _ _, .inl (Part.haltRequest_tripHalted ?_ ?_)⟩
    · rw [hm, Part.withSupply_fx]; rfl
    · rw [hm, Part.withSupply_fx]; exact hr
  · have hreason : ((p.fx f).supply.stuck p.clock).tripReason = (p.fx f).supply.tripReason := if_neg h
    rw [Part.dischargeFailed_pending h, hreason]
    have hm : ∀ g, ((p.withSupply f ((p.fx f).supply.stuck p.clock)).residualShown f (p.fx f).supply.tripReason).fx g =
        (p.withSupply f ((p.fx f).supply.stuck p.clock)).fx g := fun g => Part.residualShown_fx _ _ g _
    obtain ⟨hc, hp⟩ := (p.withSupply f ((p.fx f).supply.stuck p.clock)).residualShown_rest f (p.fx f).supply.tripReason
    refine ⟨_, hm, hc, hp, top _ _, ?_⟩
    have hrun : (((p.withSupply f ((p.fx f).supply.stuck p.clock)).residualShown f (p.fx f).supply.tripReason).fx f).run =
        (p.fx f).run := by rw [hm, Part.withSupply_fx]
    cases ho : (p.fx f).run.isOpen with
    | true => exact .inr ⟨h, rfl, Part.endRun_of_ne (by rw [hrun]; exact Run.state_ne_halting ho)⟩
    | false => exact .inl (Part.endRun_tripHalted (by rw [hrun]; exact ho))

/-- What a discharge that fails makes of a part. -/
theorem Part.dischargeFailed_facts (hr : (p.fx f).supply.range = .high) :
    let q := p.dischargeFailed f
    q.clock = p.clock ∧ q.powered = p.powered ∧ (q.fx f).supply = (p.fx f).supply.stuck p.clock ∧
      (∃ n rest, (q.con (consoleFor f)).entries = { id := n, owner := f, cls := .safety
                                                    text := textResidual ((p.fx f).supply.stuck p.clock).tripReason } :: rest) ∧
      ((p.fx f).run.state = .halting → (q.fx f).run = { (p.fx f).run with state := .ended }) ∧
      ((p.fx f).run.isOpen = true → (p.fx f).supply.tripReason = .none →
        (q.fx f).run.haltReason = .supplyTrip ∧ (q.fx f).run.state = .ended ∧ (q.fx f).inflight = none) ∧
      ∀ g, g ≠ f → q.fx g = p.fx g := by
  obtain ⟨m, hfx, hclock, hpow, ⟨n, rest, htop⟩, h⟩ := Part.dischargeFailed_shown hr
  have hself : m.fx f = { p.fx f with supply := (p.fx f).supply.stuck p.clock } := (hfx f).trans (Part.withSupply_fx _ _ _)
  have hother : ∀ g, g ≠ f → m.fx g = p.fx g := fun g hg => (hfx g).trans (Part.modFx_fx_ne _ _ hg)
  have hrun : (m.fx f).run = (p.fx f).run := by rw [hself]
  have hdown : (m.fx f).supply.isDown := by rw [hself]; exact .inr rfl
  rcases h with h | ⟨hn, ho, e⟩
  · obtain ⟨rest', htop', _⟩ := h.top _ _ rfl htop
    have hopened := h.opened
    have hclosed := h.closed
    rw [hrun] at hopened hclosed
    refine ⟨h.clock.trans hclock, h.powered.trans hpow, by rw [h.supply, hself], ⟨n, rest', htop'⟩, fun hs => ?_, fun ho _ => ?_,
      fun g hg => (h.others g hg).trans (hother g hg)⟩
    · obtain ⟨hsame, hended, _⟩ := hclosed (by simp [Run.isOpen, hs])
      rw [← hsame, ← hended hs hdown]
    · obtain ⟨hreason, _, hin, _, hended, _⟩ := hopened ho
      exact ⟨hreason, hended hdown, hin⟩
  · dsimp only
    rw [e]
    exact ⟨hclock, hpow, by rw [hself], ⟨n, rest, htop⟩, fun hs => absurd ho (by simp [Run.isOpen, hs]), fun _ k => absurd k hn, hother⟩

end

/-- Settles O33: a timer that acts is a trip, or a discharge that ends, at its deadline. -/
theorem supplyTimersTripAndDischargesEnd : Obligations.SupplyTimersTripAndDischargesEnd := by
  unfold Obligations.SupplyTimersTripAndDischargesEnd
  refine ⟨?_, ?_⟩
  · intro s f c at_ reason text hp u
    refine ⟨⟨fun h => State.event_next hp (q := s.part) (if_neg h), fun h => State.event_next hp (q := s.part) (if_neg h)⟩, fun h => ?_⟩
    have key : exec c s = .next (s.withPart ((s.part.advanceTo at_).tripSupply f reason)) ∧ text = textTrip reason ∧ reason ≠ .none := by
      rcases h with ⟨rfl, hs, rfl, rfl, rfl⟩ | ⟨rfl, hs, rfl, rfl, rfl⟩
      · exact ⟨State.event_next hp (if_pos hs), rfl, by decide⟩
      · exact ⟨State.event_next hp (if_pos hs), rfl, by decide⟩
    obtain ⟨hexec, rfl, hr⟩ := key
    have hx : ∀ g, ((s.part.advanceTo at_).fx g).run = (s.part.fx g).run ∧ ((s.part.advanceTo at_).fx g).supply = (s.part.fx g).supply :=
      fun g => ⟨Part.advanceTo_fx_run _ _ _, Part.advanceTo_fx_supply _ _ _⟩
    obtain ⟨hclock, _, hsup, hothers, htop, hopen, hclosed⟩ := (s.part.advanceTo at_).tripSupply_facts f reason
    rw [(hx f).1, (hx f).2] at hopen hclosed
    rw [(hx f).2, Part.advanceTo_clock] at hsup
    generalize (s.part.advanceTo at_).tripSupply f reason = q at hexec hclock hsup hothers htop hopen hclosed
    have hsup' : (q.fx f).supply = { u with
        state := if u.below500 then .tripped else .discharge, tripReason := reason, range := .high, since := max s.part.clock at_
        atLimit := false, residual := if u.below500 then false else u.residual } := by
      rw [hsup]
      simp only [Supply.cutWith, hr, if_false, ne_eq, not_false_eq_true, and_true]
      rfl
    refine ⟨s.withPart q, hexec, rfl, hclock.trans (Part.advanceTo_clock _ _), hsup', htop, fun g hg => ?_, hopen, hclosed⟩
    show (q.fx g).supply = _ ∧ (q.fx g).run = _
    rw [hothers g hg]
    exact ⟨(hx g).2, (hx g).1⟩
  · intro s f hp u seen ended
    have hended : ∀ v : Supply, (s.part.withSupply f v).endRun f =
        if v.state = .off ∨ v.state = .tripped then ended (s.part.withSupply f v) else s.part.withSupply f v := by
      intro v
      have hx := s.part.withSupply_fx f v
      have hrun : ((s.part.withSupply f v).fx f).run = (s.part.fx f).run := by rw [hx]
      split
      next hd =>
        show _ = if (s.part.fx f).run.state = .halting then _ else _
        split
        next hs =>
          rw [Part.endRun_ends (by rw [hrun]; exact hs) (by rw [hx]; exact hd), Part.runEnded, hrun]
          rfl
        next hs => exact Part.endRun_of_ne (by rw [hrun]; exact hs)
      next hd => exact Part.endRun_up (by rw [hx]; exact hd)
    have below : ∀ b, ¬ (u.state = .discharge ∧ b = true) → s.part.below f b =
        if u.state = .off ∨ u.state = .tripped then ended (s.part.withSupply f (u.seenBelow b)) else s.part.withSupply f
            (u.seenBelow b) := by
      intro b h
      rw [Part.below_eq hp, Part.endDischarge_goesOn (by rw [Part.withSupply_fx]; exact h), hended]
      rfl
    refine ⟨?_, fun hs => ?_, fun hs => ?_, fun hs => ?_, fun hs hr => ?_⟩
    · exact State.atPin_next ((below false fun k => nomatch k.2).trans rfl)
    · refine State.atPin_next ((Part.below_eq hp true).trans ?_)
      rw [Part.endDischarge_ends (v := u.seenBelow true) hs rfl, hended, if_pos (by dsimp only; split <;> simp)]
      rfl
    · exact State.atPin_next ((below true fun k => hs k.1).trans rfl)
    · exact State.event_next hp (q := s.part) (if_neg hs)
    · have hsup : ∀ g, ((s.part.advanceTo (u.since + 1000000)).fx g).supply = (s.part.fx g).supply :=
        fun g => Part.advanceTo_fx_supply _ _ _
      have hrun : ∀ g, ((s.part.advanceTo (u.since + 1000000)).fx g).run = (s.part.fx g).run := fun g => Part.advanceTo_fx_run _ _ _
      have hexec : exec (.dischargeTimerExpiry f) s = .next (s.withPart ((s.part.advanceTo (u.since + 1000000)).dischargeFailed f)) :=
        State.event_next hp (if_pos hs)
      obtain ⟨hclock, hpow, hq, ⟨n, rest, htop⟩, hhalting, hopen, hothers⟩ :=
        Part.dischargeFailed_facts (p := s.part.advanceTo (u.since + 1000000)) (f := f) (by rw [hsup]; exact hr)
      rw [hsup, Part.advanceTo_clock] at hq htop
      rw [hrun] at hhalting hopen
      rw [hsup] at hopen
      rw [Part.advanceTo_clock] at hclock
      rw [Part.advanceTo_powered] at hpow
      generalize (s.part.advanceTo (u.since + 1000000)).dischargeFailed f = q at hexec hclock hpow hq htop hhalting hopen hothers
      refine ⟨s.withPart q, hexec, rfl, ?_, hclock, hq, ⟨n, rest, htop.trans ?_⟩, hhalting, hopen, fun g hg => ?_⟩
      · show q.dischargeLoad f = true
        rw [Part.dischargeLoad, hq]
        exact Bool.or_true _
      · show { id := n, owner := f, cls := EntryClass.safety, text := textResidual ((s.part.fx f).supply.stuck _).tripReason :
          Entry } :: rest = _
        rw [Supply.stuck]
        dsimp only
        cases (s.part.fx f).supply.tripReason <;> rfl
      · show (q.fx g).supply = _ ∧ (q.fx g).run = _
        rw [hothers g hg]
        exact ⟨hsup g, hrun g⟩

end Sys2Proof.Machine
end

section
/-! PROOFS. The rack monitor (section 3.7). -/

namespace Sys2Proof.Machine

open Sys2Proof

/-! ## The level follows the input -/

/-- The notice of one change of level. -/
def rackNotice (old new : RackLevel) : List Notice := if new = old then [] else [.rackLevel new old]

/-- The rack monitor's input and level set. -/
def Part.withRack (r : Rack) (p : Part) : Part := { p with rack := r }

/-- Notices posted in order. -/
def Part.posts (ns : List Notice) (p : Part) : Part := ns.foldl (fun q n => q.post n) p

theorem Part.posts_append (p : Part) (l k : List Notice) : p.posts (l ++ k) = (p.posts l).posts k := List.foldl_append

theorem Part.posts_withRack (p : Part) (ns : List Notice) (r : Rack) : (p.posts ns).withRack r = (p.withRack r).posts ns := by
  induction ns generalizing p with
  | nil => rfl
  | cons n ns ih => exact ih (p.post n)

theorem Part.posts_rack (p : Part) (ns : List Notice) : (p.posts ns).rack = p.rack := by
  induction ns generalizing p with
  | nil => rfl
  | cons n ns ih => exact ih (p.post n)

theorem Part.posts_fx (p : Part) (ns : List Notice) (f : FixtureIx) : (p.posts ns).fx f = p.fx f := by
  induction ns generalizing p with
  | nil => rfl
  | cons n ns ih => rw [← p.post_fx n f]; exact ih (p.post n)

theorem Part.rackStep_posts (p : Part) (ns : List Notice) (mv : Nat) (v : RackLevel) :
    ((p.withRack { mv := mv, level := v }).posts ns).rackStep =
      (p.withRack { mv := mv, level := v.next mv }).posts (ns ++ rackNotice v (v.next mv)) := by
  have hr : ((p.withRack { mv := mv, level := v }).posts ns).rack = { mv := mv, level := v } := Part.posts_rack _ _
  unfold Part.rackStep
  rw [hr]
  dsimp only
  rw [rackNotice, Part.posts_append]
  split
  next h => rw [h]; rfl
  next => exact congrArg (Part.post (.rackLevel (v.next mv) v)) (Part.posts_withRack _ ns _)

/-- The level after both steps. -/
def RackLevel.after (v : RackLevel) (mv : Nat) : RackLevel := (v.next mv).next mv

/-- The notices of both steps. -/
def RackLevel.notices (v : RackLevel) (mv : Nat) : List Notice := rackNotice v (v.next mv) ++ rackNotice (v.next mv) (v.after mv)

/-- The level for an input voltage in one step. -/
def RackLevel.direct (v : RackLevel) (mv : Nat) : RackLevel :=
  match v with
  | .normal => if mv ≤ 19000 then .cutoff else if mv ≤ 22000 then .low else .normal
  | .low => if mv ≤ 19000 then .cutoff else if 22500 < mv then .normal else .low
  | .cutoff => if mv ≤ 19500 then .cutoff else if 22500 < mv then .normal else .low

/-- The notices between two levels, one a level. -/
def RackLevel.between : RackLevel → RackLevel → List Notice
  | .normal, .low => [.rackLevel .low .normal]
  | .normal, .cutoff => [.rackLevel .low .normal, .rackLevel .cutoff .low]
  | .low, .normal => [.rackLevel .normal .low]
  | .low, .cutoff => [.rackLevel .cutoff .low]
  | .cutoff, .low => [.rackLevel .low .cutoff]
  | .cutoff, .normal => [.rackLevel .low .cutoff, .rackLevel .normal .low]
  | _, _ => []

theorem RackLevel.steps_of_normal (mv : Nat) :
    RackLevel.normal.after mv = RackLevel.normal.direct mv ∧
      RackLevel.normal.notices mv = RackLevel.normal.between (RackLevel.normal.direct mv) := by
  unfold RackLevel.notices
  by_cases h : mv ≤ 22000
  · by_cases h' : mv ≤ 19000
    · simp [RackLevel.after, RackLevel.next, RackLevel.direct, RackLevel.between, rackNotice, h, h']
    · simp [RackLevel.after, RackLevel.next, RackLevel.direct, RackLevel.between, rackNotice, h, h', show ¬ 22500 < mv by omega]
  · simp [RackLevel.after, RackLevel.next, RackLevel.direct, RackLevel.between, rackNotice, h, show ¬ mv ≤ 19000 by omega]

theorem RackLevel.steps_of_low (mv : Nat) :
    RackLevel.low.after mv = RackLevel.low.direct mv ∧
      RackLevel.low.notices mv = RackLevel.low.between (RackLevel.low.direct mv) := by
  unfold RackLevel.notices
  by_cases h : mv ≤ 19000
  · simp [RackLevel.after, RackLevel.next, RackLevel.direct, RackLevel.between, rackNotice, h, show ¬ 19500 < mv by omega]
  · by_cases h' : 22500 < mv
    · simp [RackLevel.after, RackLevel.next, RackLevel.direct, RackLevel.between, rackNotice, h, h', show ¬ mv ≤ 22000 by omega]
    · simp [RackLevel.after, RackLevel.next, RackLevel.direct, RackLevel.between, rackNotice, h, h']

theorem RackLevel.steps_of_cutoff (mv : Nat) :
    RackLevel.cutoff.after mv = RackLevel.cutoff.direct mv ∧
      RackLevel.cutoff.notices mv = RackLevel.cutoff.between (RackLevel.cutoff.direct mv) := by
  unfold RackLevel.notices
  by_cases h : mv ≤ 19500
  · simp [RackLevel.after, RackLevel.next, RackLevel.direct, RackLevel.between, rackNotice, h, show ¬ 19500 < mv by omega]
  · by_cases h' : 22500 < mv
    · simp [RackLevel.after, RackLevel.next, RackLevel.direct, RackLevel.between, rackNotice, h, h', show 19500 < mv by omega,
        show ¬ mv ≤ 19000 by omega]
    · simp [RackLevel.after, RackLevel.next, RackLevel.direct, RackLevel.between, rackNotice, h, h', show 19500 < mv by omega,
        show ¬ mv ≤ 19000 by omega]

/-- Two steps reach the level of the input from every level. -/
theorem RackLevel.steps (v : RackLevel) (mv : Nat) : v.after mv = v.direct mv ∧ v.notices mv = v.between (v.direct mv) := by
  cases v with
  | normal => exact RackLevel.steps_of_normal mv
  | low => exact RackLevel.steps_of_low mv
  | cutoff => exact RackLevel.steps_of_cutoff mv

theorem Part.rackSteps (p : Part) (mv : Nat) (v : RackLevel) :
    (p.withRack { mv := mv, level := v }).rackStep.rackStep = (p.withRack { mv := mv, level := v.after mv }).posts (v.notices mv) := by
  have h := p.rackStep_posts [] mv v
  rw [show (p.withRack { mv := mv, level := v }).rackStep = _ from h, List.nil_append, Part.rackStep_posts]
  rfl

/-! ## CUTOFF -/

section
variable {p : Part}

theorem Part.rackTrip_others (p : Part) {f g : FixtureIx} (h : g ≠ f) : (p.rackTrip f).fx g = p.fx g := by
  rw [Part.rackTrip]
  split
  · exact (p.tripSupply_facts f .rack).2.2.2.1 g h
  · rfl

theorem Part.rackTrip_rack (p : Part) (f : FixtureIx) : (p.rackTrip f).rack = p.rack := by
  rw [Part.rackTrip]
  split
  · exact (p.tripSupply_facts f .rack).2.1
  · rfl

theorem Part.rackTrips_idle (h : ∀ f, (p.fx f).supply.live = false) (l : List FixtureIx) :
    (p.each l fun f q => q.rackTrip f) = p := by
  induction l with
  | nil => rfl
  | cons k l ih =>
    have hk : p.rackTrip k = p := by rw [Part.rackTrip, h k]; rfl
    show (p.rackTrip k).each l _ = p
    rw [hk]
    exact ih

/-- After the trips of a CUTOFF each fixture is as its own turn has left it. -/
theorem Part.rackTrips_fx (p : Part) (f : FixtureIx) :
    ∃ q : Part, q.fx f = p.fx f ∧ ((p.each allFixtures fun f q => q.rackTrip f).fx f) = (q.rackTrip f).fx f := by
  obtain ⟨q, _, hq, e⟩ := Part.each_fx_mem (R := fun _ => True) (h := fun f q => q.rackTrip f) (fun _ _ _ => trivial)
    (fun k q g hg => q.rackTrip_others hg) (by decide : allFixtures.Nodup) (mem_allFixtures f) (p := p) trivial
  exact ⟨q, hq, e⟩

theorem Part.rackTrips_rack (p : Part) : (p.each allFixtures fun f q => q.rackTrip f).rack = p.rack :=
  Part.each_invariant (R := fun q => q.rack = p.rack) (fun k q h => (q.rackTrip_rack k).trans h) rfl _

theorem Part.rackMoves_eq (hp : p.powered = true) (mv : Nat) :
    p.rackMoves mv =
      let q := (p.withRack { mv := mv, level := p.rack.level.after mv }).posts (p.rack.level.notices mv)
      if p.rack.level.after mv = .cutoff ∧ p.rack.level ≠ .cutoff then q.each allFixtures fun f q => q.rackTrip f else q := by
  have hs : (p.withRack { p.rack with mv := mv }).rackStep.rackStep = _ := p.rackSteps mv p.rack.level
  have e : p.rackMoves mv =
      if (p.withRack { p.rack with mv := mv }).rackStep.rackStep.rack.level = .cutoff ∧ p.rack.level ≠ .cutoff then
        (p.withRack { p.rack with mv := mv }).rackStep.rackStep.each allFixtures fun f q => q.rackTrip f
      else (p.withRack { p.rack with mv := mv }).rackStep.rackStep := if_pos hp
  rw [e, hs, Part.posts_rack]
  rfl

end

/-- Settles O34: the level moves at most two steps, and a fall into CUTOFF gives every live supply its turn. -/
theorem rackLevelFollowsTheInput : Obligations.RackLevelFollowsTheInput := by
  unfold Obligations.RackLevelFollowsTheInput
  intro s mv hp was now noticed
  have hnow : was.after mv = now := (was.steps mv).1
  have hnoticed : was.notices mv = noticed := (was.steps mv).2
  have hmoves := Part.rackMoves_eq hp mv
  rw [show s.part.rack.level.after mv = now from hnow, show s.part.rack.level.notices mv = noticed from hnoticed] at hmoves
  refine ⟨fun h => State.atPin_next (hmoves.trans ?_), fun hc hw => ?_⟩
  · dsimp only
    split
    next hcut =>
      refine Part.rackTrips_idle (fun f => ?_) _
      rw [Part.posts_fx]
      rcases h with h | h | h
      · exact absurd hcut.1 h
      · exact absurd h hcut.2
      · exact h f
    next => rfl
  · have hmoves' := hmoves.trans (if_pos ⟨hc, hw⟩)
    have hrack : (((s.part.withRack { mv := mv, level := now }).posts noticed).each allFixtures fun f q => q.rackTrip f).rack =
        { mv := mv, level := .cutoff } := by
      rw [Part.rackTrips_rack, Part.posts_rack, hc]
      rfl
    have hfx := fun f => Part.rackTrips_fx ((s.part.withRack { mv := mv, level := now }).posts noticed) f
    generalize ((s.part.withRack { mv := mv, level := now }).posts noticed).each allFixtures (fun f q => q.rackTrip f) =
        t at hmoves' hrack hfx
    refine ⟨s.withPart t, State.atPin_next hmoves', rfl, hrack, fun f => ?_⟩
    obtain ⟨q, hq, e⟩ := hfx f
    have hq' : q.fx f = s.part.fx f := hq.trans (Part.posts_fx _ _ _)
    refine ⟨fun hl => ?_, fun hl => ?_⟩
    · obtain ⟨_, _, hsup, _, _, hopen, _⟩ := q.tripSupply_facts f .rack
      have htrip : q.rackTrip f = q.tripSupply f .rack := if_pos (by rw [hq']; exact hl)
      rw [← htrip, ← e] at hsup hopen
      rw [hq'] at hsup hopen
      refine ⟨(congrArg Supply.tripReason hsup :), (congrArg Supply.state hsup :), fun ho => ?_⟩
      obtain ⟨hreason, _, _, _, hstate⟩ := hopen ho
      refine ⟨hreason, ?_⟩
      cases hb : (s.part.fx f).supply.below500 with
      | true => exact .inr (hstate.trans (if_pos hb))
      | false => exact .inl (hstate.trans (if_neg (by rw [hb]; decide)))
    · have htrip : q.rackTrip f = q := if_neg (by rw [hq', hl]; decide)
      have hx : t.fx f = s.part.fx f := by rw [e, htrip, hq']
      exact ⟨congrArg Fixture.supply hx, congrArg Fixture.run hx⟩

end Sys2Proof.Machine
end

section
/-! PROOFS. The requests of the stimulus channels: definitions, reports and releases (sections 4.1 and 11.5). -/

namespace Sys2Proof.Machine

open Sys2Proof

/-! ## The channel that a request names -/

theorem Part.atChannel_named {p : Part} {payload : List Byte} {i : Nat} {c : ChannelIx} (h : byteAt payload i = c.val)
    (g : ChannelIx → Part → Answer) : p.atChannel payload i g = g c p := by
  rw [Part.atChannel, finOf_eq_some.mpr h]

theorem Part.atChannel_unnamed {p : Part} {payload : List Byte} {i : Nat} (h : 31 < byteAt payload i)
    (g : ChannelIx → Part → Answer) : p.atChannel payload i g = p.refuse .badField := by
  rw [Part.atChannel, finOf_none (by omega)]

theorem channelByte (c : ChannelIx) : (BitVec.ofNat 8 c.val).toNat = c.val := by
  have := c.isLt
  rw [BitVec.toNat_ofNat]
  exact Nat.mod_eq_of_lt (by omega)

theorem byteAt_channel (c : ChannelIx) (l : List Byte) : byteAt (BitVec.ofNat 8 c.val :: l) 0 = c.val := channelByte c

/-! ## DEFINE_CHANNEL -/

/-- A bank's slots lie in pattern memory. -/
def ExtentOk (start count : Nat) : Prop := 1 ≤ count ∧ count ≤ 16384 ∧ start + count ≤ 16384

theorem bankOk_iff {start count : Nat} : bankOk start count = true ↔ ExtentOk start count := by
  simp only [bankOk, ExtentOk, Bool.and_eq_true, decide_eq_true_eq]
  omega

theorem modeOf_eq_some_iff {k : Nat} {m : Mode} : modeOf k = some m ↔ k = m.code := by
  unfold modeOf
  constructor
  · intro h
    split_ifs at h with h0 h1 h2 <;> cases h <;> assumption
  · rintro rfl
    cases m <;> rfl

theorem bankOf_isSome_iff {k : Nat} : (bankOf k).isSome = true ↔ k = 1 ∨ k = 2 := by
  unfold bankOf
  by_cases h1 : k = 1
  · simp [h1]
  · by_cases h2 : k = 2 <;> simp [h1, h2]

/-- The definition that DEFINE_CHANNEL's bytes give, once its level, mode and unit are known. -/
def channelDefOf (f : FixtureIx) (p : List Byte) (level : Level) (mode : Mode) (unitMs : Bool) : ChannelDef :=
  { fixture := f, level := level, mode := mode, repeats := u16At p 4, aStart := u16At p 6, aCount := u16At p 8
    bStart := u16At p 10, bCount := u16At p 12, firstBank := p.getD 14 0, unitMs := unitMs
    half := byteAt p 16 % 2 = 1, endNotice := byteAt p 16 / 2 % 2 = 1 }

theorem parseChannelDef_eq_some {f : FixtureIx} {p : List Byte} {d : ChannelDef} :
    parseChannelDef f p = some d ↔ ∃ (level : Level) (mode : Mode) (unitMs : Bool), byteAt p 2 = level.val ∧ byteAt p 3 = mode.code ∧
      byteAt p 15 = flagNat unitMs ∧ ExtentOk (u16At p 6) (u16At p 8) ∧
      (mode = .pingpong → ExtentOk (u16At p 10) (u16At p 12) ∧ (byteAt p 14 = 1 ∨ byteAt p 14 = 2)) ∧
      channelDefOf f p level mode unitMs = d := by
  simp only [parseChannelDef, Option.bind_eq_bind, Option.bind_eq_some_iff, Option.pure_def, Option.some_inj, need_eq_some_iff,
    exists_const, finOf_eq_some, modeOf_eq_some_iff, boolOf_eq_some_iff, Bool.or_eq_true, decide_eq_true_eq, bankOk_iff,
    bankOf_isSome_iff, channelDefOf]
  constructor
  · rintro ⟨level, hl, mode, hm, ha, hb, hf, u, hu, e⟩
    exact ⟨level, mode, u, hl, hm, hu, ha, fun k => ⟨hb.resolve_left (not_not_intro k), hf.resolve_left (not_not_intro k)⟩, e⟩
  · rintro ⟨level, mode, u, hl, hm, hu, ha, hp, e⟩
    exact ⟨level, hl, mode, hm, ha, (Classical.em (mode ≠ .pingpong)).imp id fun k => (hp (not_not.mp k)).1,
      (Classical.em (mode ≠ .pingpong)).imp id fun k => (hp (not_not.mp k)).2, u, hu, e⟩

/-- What DEFINE_CHANNEL asks of its fields (R74, check 4). -/
def ChannelFieldsOk (p : List Byte) : Prop :=
  byteAt p 2 ≤ 3 ∧ byteAt p 3 ≤ 2 ∧ byteAt p 15 ≤ 1 ∧ ExtentOk (u16At p 6) (u16At p 8) ∧
    (byteAt p 3 = 2 → ExtentOk (u16At p 10) (u16At p 12) ∧ (byteAt p 14 = 1 ∨ byteAt p 14 = 2))

theorem Mode.code_eq_two_iff {m : Mode} : m.code = 2 ↔ m = .pingpong := by cases m <;> simp [Mode.code]

theorem ChannelFieldsOk.of_parse {f : FixtureIx} {p : List Byte} {d : ChannelDef} (h : parseChannelDef f p = some d) :
    ChannelFieldsOk p := by
  obtain ⟨level, mode, u, hl, hm, hu, ha, hp, _⟩ := parseChannelDef_eq_some.mp h
  have hlevel := level.isLt
  have hmode : mode.code ≤ 2 := by cases mode <;> decide
  have hunit : flagNat u ≤ 1 := by cases u <;> decide
  exact ⟨by omega, by omega, by omega, ha, fun k => hp (Mode.code_eq_two_iff.mp (hm ▸ k))⟩

theorem ChannelFieldsOk.parse {p : List Byte} (h : ChannelFieldsOk p) (f : FixtureIx) :
    ∃ (level : Level) (mode : Mode) (unitMs : Bool), byteAt p 2 = level.val ∧ byteAt p 3 = mode.code ∧
      byteAt p 15 = flagNat unitMs ∧ parseChannelDef f p = some (channelDefOf f p level mode unitMs) := by
  obtain ⟨hl, hm, hu, ha, hp⟩ := h
  have hmode : ∃ mode : Mode, byteAt p 3 = mode.code := by
    rcases (by omega : byteAt p 3 = 0 ∨ byteAt p 3 = 1 ∨ byteAt p 3 = 2) with e | e | e
    exacts [⟨.once, e⟩, ⟨.circular, e⟩, ⟨.pingpong, e⟩]
  have hunit : ∃ u : Bool, byteAt p 15 = flagNat u := by
    rcases (by omega : byteAt p 15 = 0 ∨ byteAt p 15 = 1) with e | e
    exacts [⟨false, e⟩, ⟨true, e⟩]
  obtain ⟨mode, hmode⟩ := hmode
  obtain ⟨u, hunit⟩ := hunit
  refine ⟨⟨byteAt p 2, by omega⟩, mode, u, rfl, hmode, hunit, ?_⟩
  exact parseChannelDef_eq_some.mpr ⟨⟨byteAt p 2, by omega⟩, mode, u, rfl, hmode, hunit, ha,
    fun k => hp (hmode.trans (Mode.code_eq_two_iff.mpr k)), rfl⟩

theorem channelDefOf_start {f : FixtureIx} {p : List Byte} {level : Level} {mode : Mode} {u : Bool} (hm : byteAt p 3 = mode.code) :
    (channelDefOf f p level mode u).start (channelDefOf f p level mode u).first =
      if byteAt p 3 = 2 ∧ byteAt p 14 = 2 then u16At p 10 else u16At p 6 := by
  by_cases h : mode = .pingpong
  · have hb : (channelDefOf f p level mode u).firstBank = 2 ↔ byteAt p 14 = 2 :=
      ⟨fun e => by rw [byteAt, show p.getD 14 0 = 2 from e]; rfl, fun e => BitVec.eq_of_toNat_eq e⟩
    rw [ChannelDef.first_pingpong h]
    simp only [hb, hm.trans (Mode.code_eq_two_iff.mpr h), true_and]
    split <;> rfl
  · have h2 : byteAt p 3 ≠ 2 := fun k => h (Mode.code_eq_two_iff.mp (hm ▸ k))
    have hfirst : (channelDefOf f p level mode u).first = .a := if_neg h
    rw [hfirst, if_neg fun k => h2 k.1]
    rfl

section
variable {p : Part} {payload : List Byte} {c : ChannelIx} {f : FixtureIx}

theorem Part.defineChannel_unnamed (hn : payload.length = 17) (h : 31 < byteAt payload 0) :
    p.defineChannel payload = p.refuse .badField := by
  rw [Part.defineChannel, Part.ofLength_of_eq hn, Part.atChannel_unnamed h]

theorem Part.defineChannel_unfitted (hn : payload.length = 17) (h : byteAt payload 0 = c.val)
    (hf : ∀ g : FixtureIx, byteAt payload 1 = g.val → p.isFitted g = false) : p.defineChannel payload = p.refuse .notFitted := by
  rw [Part.defineChannel, Part.ofLength_of_eq hn, Part.atChannel_named h, Part.atFixture_none hf]

theorem Part.defineChannel_badFields (hn : payload.length = 17) (h : byteAt payload 0 = c.val) (h1 : byteAt payload 1 = f.val)
    (hf : p.isFitted f = true) (hd : parseChannelDef f payload = none) : p.defineChannel payload = p.refuse .badField := by
  rw [Part.defineChannel, Part.ofLength_of_eq hn, Part.atChannel_named h, Part.atFixture_fitted hf h1]
  simp only [hd]

theorem Part.defineChannel_parsed (hn : payload.length = 17) (h : byteAt payload 0 = c.val) (h1 : byteAt payload 1 = f.val)
    (hf : p.isFitted f = true) {d : ChannelDef} (hd : parseChannelDef f payload = some d) :
    p.defineChannel payload =
      if (p.ch c).state = .idle ∨ (p.ch c).state = .done then (p.modCh c fun _ => Channel.defined d).accept []
      else p.refuse .wrongState := by
  rw [Part.defineChannel, Part.ofLength_of_eq hn, Part.atChannel_named h, Part.atFixture_fitted hf h1]
  simp only [hd]

end

/-! ## READ_CHANNEL -/

theorem byteAt_cons_succ (a : Byte) (l : List Byte) (k : Nat) : byteAt (a :: l) (k + 1) = byteAt l k := rfl

theorem ChannelState.code_lt (s : ChannelState) : s.code < 256 := by cases s <;> decide

theorem FaultReason.code_lt (r : FaultReason) : r.code < 256 := by cases r <;> decide

theorem bankCode_lt (b : Option Bank) : bankCode b < 256 := by
  cases b with
  | none => decide
  | some k => cases k <;> decide

theorem Mode.code_lt (m : Mode) : m.code < 256 := by cases m <;> decide

@[simp] theorem ChannelDef.length_encode (d : ChannelDef) (c : ChannelIx) : (d.encode c).length = 17 := by simp [ChannelDef.encode]

/-- The definition's bytes in a report. -/
def Channel.reportDefn (ch : Channel) (c : ChannelIx) : List Byte := (ch.defn.map fun d => d.encode c).getD (List.replicate 17 0)

@[simp] theorem Channel.length_reportDefn (ch : Channel) (c : ChannelIx) : (ch.reportDefn c).length = 17 := by
  unfold Channel.reportDefn
  cases ch.defn <;> simp

/-- The bytes of a report after the definition's. -/
def Channel.reportState (ch : Channel) : List Byte :=
  le8 ch.state.code ++ flag (ch.state = .playing && !ch.due) ++ le8 (bankCode ch.bank) ++ le16 ch.position ++ le16 ch.remaining ++
    le16 ch.passes ++ flag ch.readyA ++ flag ch.readyB ++ le8 ch.fault.code

theorem Channel.report_eq (ch : Channel) (c : ChannelIx) :
    ch.report c = flag ch.defn.isSome ++ (ch.reportDefn c ++ ch.reportState) := by
  simp only [Channel.report, Channel.reportDefn, Channel.reportState, List.append_assoc]

theorem Channel.report_state (ch : Channel) (c : ChannelIx) :
    let r := ch.report c
    r.length = 30 ∧ byteAt r 18 = ch.state.code ∧ byteAt r 19 = flagNat (ch.state = .playing && !ch.due) ∧
      byteAt r 20 = bankCode ch.bank ∧ u16At r 21 = ch.position % 65536 ∧ u16At r 23 = ch.remaining % 65536 ∧
      u16At r 25 = ch.passes % 65536 ∧ byteAt r 27 = flagNat ch.readyA ∧ byteAt r 28 = flagNat ch.readyB ∧
      byteAt r 29 = ch.fault.code := by
  simp [Channel.report_eq, Channel.reportState, byteAt_le8_of_lt, ChannelState.code_lt, FaultReason.code_lt, bankCode_lt, u16At_le16]

theorem ChannelDef.encode_fields (d : ChannelDef) (c : ChannelIx) :
    let r := d.encode c
    byteAt r 0 = c.val ∧ byteAt r 1 = d.fixture.val ∧ byteAt r 2 = d.level.val ∧ byteAt r 3 = d.mode.code ∧
      u16At r 4 = d.repeats % 65536 ∧ u16At r 6 = d.aStart % 65536 ∧ u16At r 8 = d.aCount % 65536 ∧ u16At r 10 = d.bStart % 65536 ∧
      u16At r 12 = d.bCount % 65536 ∧ r.getD 14 0 = d.firstBank ∧ byteAt r 15 = flagNat d.unitMs ∧
      byteAt r 16 = flagNat d.half + 2 * flagNat d.endNotice := by
  have hc : c.val < 256 := by have := c.isLt; omega
  have hf : d.fixture.val < 256 := by have := d.fixture.isLt; omega
  have hl : d.level.val < 256 := by have := d.level.isLt; omega
  have hn : flagNat d.half + 2 * flagNat d.endNotice < 256 := by
    cases d.half <;> cases d.endNotice <;> decide
  have hb : byteAt (d.encode c) 14 = d.firstBank.toNat := by simp [ChannelDef.encode, byteAt]
  refine ⟨?_, ?_, ?_, ?_, ?_, ?_, ?_, ?_, ?_, BitVec.eq_of_toNat_eq hb, ?_, ?_⟩
  all_goals simp [ChannelDef.encode, byteAt_le8_of_lt, u16At_le16, byteAt_cons_succ, hc, hf, hl, hn, Mode.code_lt]

theorem Channel.report_encode {ch : Channel} {d : ChannelDef} (h : ch.defn = some d) (c : ChannelIx) {k : Nat} :
    (k < 17 → byteAt (ch.report c) (1 + k) = byteAt (d.encode c) k) ∧
      (k < 16 → u16At (ch.report c) (1 + k) = u16At (d.encode c) k) := by
  have hd : ch.reportDefn c = d.encode c := by rw [Channel.reportDefn, h]; rfl
  rw [Channel.report_eq, hd]
  refine ⟨fun hk => ?_, fun hk => ?_⟩
  · rw [byteAt_append_right (by simp), length_flag, Nat.add_sub_cancel_left, byteAt_append_left (by simp; omega)]
  · rw [u16At_append_right (by simp), length_flag, Nat.add_sub_cancel_left, u16At_append_left (by simp; omega)]

theorem Channel.report_undefined {ch : Channel} (h : ch.defn = none) (c : ChannelIx) :
    ((ch.report c).drop 1).take 17 = List.replicate 17 0 := by
  have hd : ch.reportDefn c = List.replicate 17 0 := by rw [Channel.reportDefn, h]; rfl
  rw [Channel.report_eq, List.drop_left' (length_flag _), List.take_left' (ch.length_reportDefn c), hd]

theorem Channel.report_defined (ch : Channel) (c : ChannelIx) : byteAt (ch.report c) 0 = flagNat ch.defn.isSome := by
  rw [Channel.report_eq, byteAt_append_left (by simp), byteAt_flag]

/-- The report of a defined channel. -/
theorem Channel.report_fields {ch : Channel} {d : ChannelDef} (h : ch.defn = some d) (c : ChannelIx) :
    let r := ch.report c
    byteAt r 1 = c.val ∧ byteAt r 2 = d.fixture.val ∧ byteAt r 3 = d.level.val ∧ byteAt r 4 = d.mode.code ∧
      (d.repeats ≤ 65535 → u16At r 5 = d.repeats) ∧ (d.aStart ≤ 65535 → u16At r 7 = d.aStart) ∧
      (d.aCount ≤ 65535 → u16At r 9 = d.aCount) ∧ (d.bStart ≤ 65535 → u16At r 11 = d.bStart) ∧
      (d.bCount ≤ 65535 → u16At r 13 = d.bCount) ∧ r.getD 15 0 = d.firstBank ∧ byteAt r 16 = flagNat d.unitMs ∧
      byteAt r 17 = flagNat d.half + 2 * flagNat d.endNotice := by
  intro r
  obtain ⟨h0, h1, h2, h3, h4, h6, h8, h10, h12, h14, h15, h16⟩ := d.encode_fields c
  have byte : ∀ m k {v : Nat}, k < 17 → m = 1 + k → byteAt (d.encode c) k = v → byteAt r m = v := by
    rintro _ k _ hk rfl rfl
    exact (Channel.report_encode h c).1 hk
  have word : ∀ m k {n : Nat}, k < 16 → m = 1 + k → u16At (d.encode c) k = n % 65536 → n ≤ 65535 → u16At r m = n := by
    rintro _ k n hk rfl e hn
    exact ((Channel.report_encode h c).2 hk).trans (e.trans (Nat.mod_eq_of_lt (Nat.lt_succ_of_le hn)))
  have hfirst : byteAt r 15 = d.firstBank.toNat := byte 15 14 (by decide) rfl (congrArg BitVec.toNat h14)
  exact ⟨byte 1 0 (by decide) rfl h0, byte 2 1 (by decide) rfl h1, byte 3 2 (by decide) rfl h2, byte 4 3 (by decide) rfl h3,
    word 5 4 (by decide) rfl h4, word 7 6 (by decide) rfl h6, word 9 8 (by decide) rfl h8, word 11 10 (by decide) rfl h10,
    word 13 12 (by decide) rfl h12, BitVec.eq_of_toNat_eq hfirst, byte 16 15 (by decide) rfl h15, byte 17 16 (by decide) rfl h16⟩

section
variable {p : Part} {c : ChannelIx}

theorem Part.readChannel_named (p : Part) (c : ChannelIx) :
    p.readChannel [BitVec.ofNat 8 c.val] = p.accept ((p.ch c).report c) := by
  rw [Part.readChannel, Part.ofLength_of_eq (n := 1) (payload := [_]) rfl, Part.atChannel_named (byteAt_channel c [])]

theorem Part.clearChannel_named (p : Part) (c : ChannelIx) :
    p.clearChannel [BitVec.ofNat 8 c.val] =
      if (p.ch c).state = .faulted then (p.modCh c fun ch => { ch with state := .idle, fault := .none }).accept []
      else p.refuse .wrongState := by
  rw [Part.clearChannel, Part.ofLength_of_eq (n := 1) (payload := [_]) rfl, Part.atChannel_named (byteAt_channel c [])]

theorem Part.channelRequests_unnamed (p : Part) {big : Byte} (h : 31 < big.toNat) :
    p.readChannel [big] = p.refuse .badField ∧ p.clearChannel [big] = p.refuse .badField := by
  have hb : 31 < byteAt [big] 0 := h
  rw [Part.readChannel, Part.clearChannel, Part.ofLength_of_eq (n := 1) (payload := [_]) rfl,
    Part.ofLength_of_eq (n := 1) (payload := [_]) rfl, Part.atChannel_unnamed hb, Part.atChannel_unnamed hb]
  exact ⟨rfl, rfl⟩

end

end Sys2Proof.Machine
end

section
/-! PROOFS. MARK_BANK_READY (sections 4.1 and 4.2). -/

namespace Sys2Proof.Machine

open Sys2Proof

section
variable {p : Part} {c : ChannelIx} {d : ChannelDef} {bk : Bank}

theorem Part.noticed_nil (p : Part) : p.noticed [] = p := by
  rw [Part.noticed, List.append_nil]

theorem Part.postChannel_eq (h : (p.ch c).defn = some d) (k : ChannelEvent) (b : Option Bank) :
    p.postChannel c k b = p.post (.channelEvent c d.fixture k b (p.ch c).passes (if k = .fault then (p.ch c).fault else .none)) := by
  rw [Part.postChannel, h]

/-- The byte that names a bank. -/
def Bank.byte : Bank → Byte
  | .a => 1
  | .b => 2

theorem Bank.bankOf_byte (bk : Bank) (x : Byte) : bankOf (byteAt [x, bk.byte] 1) = some bk := by cases bk <;> rfl

theorem Part.markBankReady_bad {big code : Byte} (h : 31 < big.toNat ∨ code.toNat = 0 ∨ 2 < code.toNat) :
    p.markBankReady [big, code] = p.refuse .badField := by
  rw [Part.markBankReady, Part.ofLength_of_eq (n := 2) (payload := [_, _]) rfl, Part.atChannel]
  cases hc : finOf 32 (byteAt [big, code] 0) with
  | none => rfl
  | some c =>
    have hlt : big.toNat = c.val := finOf_eq_some.mp hc
    have hb : bankOf (byteAt [big, code] 1) = none := by
      have hk : code.toNat ≠ 1 ∧ code.toNat ≠ 2 := by have := c.isLt; omega
      show bankOf code.toNat = none
      rw [bankOf, if_neg hk.1, if_neg hk.2]
    simp only [hb]

theorem Part.markBankReady_undefined (h : (p.ch c).defn = none) :
    p.markBankReady [BitVec.ofNat 8 c.val, bk.byte] = p.refuse .wrongState := by
  rw [Part.markBankReady, Part.ofLength_of_eq (n := 2) (payload := [_, _]) rfl, Part.atChannel_named (byteAt_channel c _)]
  simp only [Bank.bankOf_byte, h]

theorem Part.markBankReady_defined (h : (p.ch c).defn = some d) :
    p.markBankReady [BitVec.ofNat 8 c.val, bk.byte] =
      if d.mode ≠ .pingpong then p.refuse .wrongState
      else if (p.ch c).state = .playing ∧ (p.ch c).bank = some bk then p.refuse .inUse
      else (p.markReady c d bk).accept
        (flag (((p.markReady c d bk).ch c).ready bk) ++ le8 ((p.markReady c d bk).ch c).state.code) := by
  rw [Part.markBankReady, Part.ofLength_of_eq (n := 2) (payload := [_, _]) rfl, Part.atChannel_named (byteAt_channel c _)]
  simp only [Bank.bankOf_byte, h]

/-- A starved channel waits for a bank: after the other one, or for the first. -/
theorem Channel.awaited_iff {ch : Channel} (hm : d.mode = .pingpong) :
    ch.awaited d = bk ↔ ch.bank = some bk.other ∨ ch.bank = none ∧ bk = if d.firstBank = 2 then .b else .a := by
  unfold Channel.awaited
  cases ch.bank with
  | none => simp [ChannelDef.first_pingpong hm, eq_comm]
  | some old => cases old <;> cases bk <;> simp [Bank.other]

/-- A channel that enters a bank whose flag it uses up. -/
def Channel.resumed (d : ChannelDef) (bk : Bank) (ch : Channel) : Channel := (ch.enter d bk).setReady bk false

/-- BANK_FREE of the bank that a resumed channel has left, if it had one. -/
def freedNotice (c : ChannelIx) (d : ChannelDef) (bk : Bank) (ch : Channel) : List Notice :=
  if ch.bank = none then [] else [.channelEvent c d.fixture .bankFree (some bk.other) ch.passes .none]

theorem Channel.resumed_defn (d : ChannelDef) (bk : Bank) (ch : Channel) :
    (ch.resumed d bk).defn = ch.defn ∧ (ch.resumed d bk).passes = ch.passes := by cases bk <;> exact ⟨rfl, rfl⟩

theorem Part.asked_markReady_flag {tag : Byte} (h : ¬ ((p.ch c).state = .starved ∧ (p.ch c).awaited d = bk)) :
    (p.asked 0x33 tag).markReady c d bk = (p.modCh c fun ch => ch.setReady bk true).asked 0x33 tag := if_neg h

theorem Part.asked_markReady_resumes {tag : Byte} (hd : (p.ch c).defn = some d) (hs : (p.ch c).state = .starved)
    (hm : d.mode = .pingpong) (hroom : p.link.notices.length < 32)
    (h : (p.ch c).bank = some bk.other ∨ (p.ch c).bank = none ∧ bk = if d.firstBank = 2 then .b else .a) :
    (p.asked 0x33 tag).markReady c d bk =
      (((p.modCh c (Channel.resumed d bk)).noticed (freedNotice c d bk (p.ch c))).asked 0x33 tag).tryGrant := by
  have hcond : (p.ch c).state = .starved ∧ (p.ch c).awaited d = bk := ⟨hs, (Channel.awaited_iff hm).mpr h⟩
  refine (if_pos hcond).trans (congrArg Part.tryGrant ?_)
  have hch : ((p.asked 0x33 tag).modCh c (Channel.resumed d bk)).ch c = (p.ch c).resumed d bk := Part.modCh_ch _ _ _
  obtain ⟨hdefn, hpass⟩ := (p.ch c).resumed_defn d bk
  rcases h with hb | ⟨hb, _⟩
  · have hpost : ((p.asked 0x33 tag).modCh c (Channel.resumed d bk)).postChannel c .bankFree (some bk.other) =
        ((p.modCh c (Channel.resumed d bk)).noticed (freedNotice c d bk (p.ch c))).asked 0x33 tag := by
      rw [Part.postChannel_eq (d := d) (by rw [hch, hdefn, hd]), hch, hpass, freedNotice, hb]
      exact Part.asked_post_room (p := p.modCh c (Channel.resumed d bk)) hroom _ _ _
    rw [← hpost]
    simp only [Part.asked_ch, hb]
    rfl
  · have hnone : freedNotice c d bk (p.ch c) = [] := if_pos hb
    rw [hnone, Part.noticed_nil]
    simp only [Part.asked_ch, hb]
    rfl

/-- The fresh channel that DEFINE_CHANNEL gives. -/
theorem Channel.defined_eq (d : ChannelDef) :
    Channel.defined d = { defn := some d, state := .idle, due := false, dwellEnd := 0, bank := none, position := d.start d.first
                          remaining := 0, passes := 0, readyA := false, readyB := false, fault := .none } := rfl

end

/-- Settles O35: DEFINE_CHANNEL's checks, the report, the release, and the mark. -/
theorem channelsAreDefinedMarkedAndCleared : Obligations.ChannelsAreDefinedMarkedAndCleared := by
  unfold Obligations.ChannelsAreDefinedMarkedAndCleared
  refine ⟨fun s tag c hl => ?_, fun s tag c bk hl hroom => ?_⟩
  · intro ch cb
    refine ⟨fun big h => ⟨?_, ?_⟩, fun h => ?_, fun h => ?_, fun payload hn h => ?_, fun payload f hn h0 => ⟨fun hf => ?_,
        fun h1 hf => ?_⟩, ?_⟩
    · exact request_refused hl (by decide) ((s.part.asked 0x31 tag).channelRequests_unnamed h).1
    · exact request_refused hl (by decide) ((s.part.asked 0x32 tag).channelRequests_unnamed h).2
    · exact request_answered hl (by decide) (s.part.modCh c fun ch => { ch with state := .idle, fault := .none })
        (((s.part.asked 0x32 tag).clearChannel_named c).trans (if_pos h)) hl.free hl.noRequest hl.noReply
    · exact request_refused hl (by decide) (((s.part.asked 0x32 tag).clearChannel_named c).trans (if_neg h))
    · exact request_refused hl (by decide) (Part.defineChannel_unnamed (p := s.part.asked 0x30 tag) hn h)
    · have hc : byteAt payload 0 = c.val := (congrArg BitVec.toNat h0).trans (channelByte c)
      exact request_refused hl (by decide) (Part.defineChannel_unfitted (p := s.part.asked 0x30 tag) hn hc hf)
    · have hc : byteAt payload 0 = c.val := (congrArg BitVec.toNat h0).trans (channelByte c)
      have hx : byteAt payload 1 = f.val := (congrArg BitVec.toNat h1).trans (byteAt_fixture f [])
      intro level mode extentOk fieldsOk
      have parsed : ∀ {d}, parseChannelDef f payload = some d → _ := fun {d} hd =>
        Part.defineChannel_parsed (p := s.part.asked 0x30 tag) hn hc hx hf (d := d) hd
      refine ⟨fun h => ?_, fun h hs => ?_, fun h hs => ?_⟩
      · have hnone : parseChannelDef f payload = none :=
          Option.eq_none_iff_forall_ne_some.mpr fun d hd => h (ChannelFieldsOk.of_parse hd)
        exact request_refused hl (by decide) (Part.defineChannel_badFields (p := s.part.asked 0x30 tag) hn hc hx hf hnone)
      · obtain ⟨_, _, _, _, _, _, hd⟩ := ChannelFieldsOk.parse (p := payload) h f
        refine request_refused hl (by decide) ((parsed hd).trans (if_neg ?_))
        show ¬ (ch.state = .idle ∨ ch.state = .done)
        rcases hs with hs | hs | hs <;> simp [hs]
      · obtain ⟨v, m, u, hv, hm, hu, hd⟩ := ChannelFieldsOk.parse (p := payload) h f
        have hstart := channelDefOf_start (f := f) (level := v) (u := u) hm
        refine ⟨channelDefOf f payload v m u, ?_, rfl, hv.symm, hm.symm, rfl, rfl, rfl, rfl, rfl, rfl, ?_, ?_, ?_⟩
        · refine request_answered hl (by decide) (s.part.modCh c fun _ => _) ((parsed hd).trans ((if_pos hs).trans ?_))
            hl.free hl.noRequest hl.noReply
          rw [Channel.defined_eq, hstart]
          rfl
        · show u = (byteAt payload 15 == 1)
          rw [hu]
          cases u <;> rfl
        · exact (Nat.testBit_zero _).symm
        · show decide (byteAt payload 16 / 2 % 2 = 1) = _
          rw [Nat.testBit_succ, Nat.testBit_zero]
    · obtain ⟨hlen, h18, h19, h20, h21, h23, h25, h27, h28, h29⟩ := ch.report_state c
      have word : ∀ {a n : Nat}, a = n % 65536 → n ≤ 65535 → a = n := fun e hn => e.trans (Nat.mod_eq_of_lt (Nat.lt_succ_of_le hn))
      exact ⟨ch.report c, request_answered hl (by decide) s.part
          ((s.part.asked 0x31 tag).readChannel_named c) hl.free hl.noRequest hl.noReply,
        hlen, ch.report_defined c, fun h => Channel.report_undefined h c, fun d h => Channel.report_fields h c, h18, h19, h20, word h21,
        word h23, word h25, h27, h28, h29⟩
  · intro ch i other
    have marked : ∀ {d}, ch.defn = some d → _ := fun {d} hd =>
      Part.markBankReady_defined (p := s.part.asked 0x33 tag) (c := c) (bk := bk) (d := d) hd
    refine ⟨fun big code h => ?_, fun h => ?_, fun d hd => ⟨fun hm => ?_, fun hm hs hb => ?_, fun hm hp hw => ?_, fun hm hs hw => ?_⟩⟩
    · exact request_refused hl (by decide) (Part.markBankReady_bad (p := s.part.asked 0x33 tag) h)
    · exact request_refused hl (by decide) (Part.markBankReady_undefined (p := s.part.asked 0x33 tag) (bk := bk) h)
    · exact request_refused hl (by decide) ((marked hd).trans (if_pos hm))
    · exact request_refused hl (by decide) ((marked hd).trans ((if_neg (not_not_intro hm)).trans (if_pos ⟨hs, hb⟩)))
    · have hflag := Part.asked_markReady_flag (p := s.part) (c := c) (d := d) (bk := bk) (tag := tag)
        fun k => hw ⟨k.1, (Channel.awaited_iff hm).mp k.2⟩
      refine request_answered hl (by decide) (s.part.modCh c fun ch => ch.setReady bk true)
        ((marked hd).trans ((if_neg (not_not_intro hm)).trans ((if_neg hp).trans ?_))) hl.free hl.noRequest hl.noReply
      rw [hflag, Part.asked_ch, Part.modCh_ch]
      cases bk <;> rfl
    · intro resumed
      have hres : resumed = (s.part.modCh c (Channel.resumed d bk)).noticed (freedNotice c d bk ch) := by
        cases bk <;> rfl
      have hmark : (s.part.asked 0x33 tag).markReady c d bk = (resumed.asked 0x33 tag).tryGrant := by
        rw [hres]
        refine Part.asked_markReady_resumes hd hs hm hroom ?_
        cases bk <;> exact hw
      have hans : (s.part.asked 0x33 tag).markBankReady [BitVec.ofNat 8 c.val, bk.byte] = _ :=
        (marked hd).trans ((if_neg (not_not_intro hm)).trans (if_neg fun k => by
          have hs' : ch.state = .playing := k.1
          rw [hs] at hs'
          cases hs'))
      rw [hmark] at hans
      refine ⟨fun hb => ?_, (resumed.asked 0x33 tag).tryGrant, State.event_next (s := s.withPart (resumed.asked 0x33 tag)) ?_ rfl, ?_⟩
      · have hbusy : (resumed.asked 0x33 tag).tryGrant = resumed.asked 0x33 tag := by
          refine Part.tryGrant_busy (Option.isSome_iff_ne_none.mpr ?_)
          rw [hres]
          exact hb
        have hch : resumed.ch c = ch.resumed d bk := by rw [hres]; exact Part.modCh_ch _ _ _
        rw [hbusy, Part.asked_ch, hch] at hans
        have hlink : resumed.link.tx = .free ∧ resumed.link.frameBuf = none ∧ resumed.link.reply = none := by
          rw [hres]
          exact ⟨hl.free, hl.noRequest, hl.noReply⟩
        refine request_answered hl (by decide) resumed (hans.trans ?_) hlink.1 hlink.2.1 hlink.2.2
        cases bk <;> rfl
      · rw [hres]
        exact hl.powered
      · refine exec_accepted (c := i) (fr := { ty := 0x33, tag := tag, payload := [BitVec.ofNat 8 c.val, bk.byte] }) rfl
          (show (0x33 : Byte).toNat < 0x70 by decide) hl
          (hans.trans ?_)
        cases bk <;> rfl

end Sys2Proof.Machine
end

section
/-! PROOFS. The record arbiter's choice (section 4.4). -/

namespace Sys2Proof.Machine

open Sys2Proof

/-! ## The first of a sorted list -/

section
variable {n : Nat} {l : List (Fin n)}

/-- In a sorted list of all numbers the first that answers is the lowest. -/
theorem find?_sorted_eq_some (hs : l.Pairwise (· < ·)) (hall : ∀ a, a ∈ l) {q : Fin n → Bool} {a : Fin n} :
    l.find? q = some a ↔ q a = true ∧ ∀ k, q k = true → a ≤ k := by
  have lowest : ∀ {a}, l.find? q = some a → q a = true ∧ ∀ k, q k = true → a ≤ k := by
    intro a h
    obtain ⟨ha, before, after, rfl, hnot⟩ := List.find?_eq_some_iff_append.mp h
    refine ⟨ha, fun k hk => ?_⟩
    obtain ⟨_, hafter, _⟩ := List.pairwise_append.mp hs
    rcases List.mem_append.mp (hall k) with hb | hb
    · exact absurd hk (by simpa using hnot k hb)
    · rcases List.mem_cons.mp hb with rfl | hb
      · exact le_refl _
      · exact le_of_lt ((List.pairwise_cons.mp hafter).1 k hb)
  refine ⟨lowest, fun ⟨ha, hmin⟩ => ?_⟩
  cases h : l.find? q with
  | none => exact absurd ha (by simpa using List.find?_eq_none.mp h a (hall a))
  | some k =>
    obtain ⟨hk, hmin'⟩ := lowest h
    rw [le_antisymm (hmin k hk) (hmin' a ha)]

/-- In a sorted list of all numbers the first result is the lowest number's. -/
theorem findSome?_sorted_eq_some {α : Type} (hs : l.Pairwise (· < ·)) (hall : ∀ a, a ∈ l) {g : Fin n → Option α} {x : α} :
    l.findSome? g = some x ↔ ∃ v, g v = some x ∧ ∀ w, w < v → g w = none := by
  have lowest : ∀ {x}, l.findSome? g = some x → ∃ v, g v = some x ∧ ∀ w, w < v → g w = none := by
    intro x h
    obtain ⟨before, v, after, rfl, hv, hnone⟩ := List.findSome?_eq_some_iff.mp h
    refine ⟨v, hv, fun w hw => ?_⟩
    obtain ⟨_, hafter, _⟩ := List.pairwise_append.mp hs
    rcases List.mem_append.mp (hall w) with hb | hb
    · exact hnone w hb
    · rcases List.mem_cons.mp hb with rfl | hb
      · exact absurd hw (lt_irrefl _)
      · exact absurd ((List.pairwise_cons.mp hafter).1 w hb) (lt_asymm hw)
  refine ⟨lowest, fun ⟨v, hv, hnone⟩ => ?_⟩
  cases h : l.findSome? g with
  | none =>
    rw [List.findSome?_eq_none_iff.mp h v (hall v)] at hv
    cases hv
  | some y =>
    obtain ⟨w, hw, hnone'⟩ := lowest h
    rcases lt_trichotomy v w with hlt | rfl | hlt
    · rw [hnone' v hlt] at hv; cases hv
    · rw [← hw, hv]
    · rw [hnone w hlt] at hw; cases hw

end

/-! ## The choice -/

theorem allFixtures_sorted : allFixtures.Pairwise (· < ·) := by decide

theorem allChannels_sorted : allChannels.Pairwise (· < ·) := by decide

theorem allLevels_sorted : allLevels.Pairwise (· < ·) := by decide

theorem mem_allLevels (v : Level) : v ∈ allLevels := by revert v; decide

section
variable {p : Part} {v : Level}

/-- A fixture's SET step asks at its run's level. -/
def Part.setAsks (p : Part) (f : FixtureIx) (v : Level) : Prop := (p.fx f).setRecord.isSome = true ∧ (p.fx f).run.priority = v

theorem Part.setOfLevel_eq_some {f : FixtureIx} :
    p.setOfLevel v = some (.setStep f) ↔ p.setAsks f v ∧ ∀ g, p.setAsks g v → f ≤ g := by
  simp only [Part.setOfLevel, Option.map_eq_some_iff, find?_sorted_eq_some allFixtures_sorted mem_allFixtures, Bool.and_eq_true,
    decide_eq_true_eq, RecordRequester.setStep.injEq, exists_eq_right, Part.setAsks]

theorem Part.setOfLevel_eq_none : p.setOfLevel v = none ↔ ∀ f, ¬ p.setAsks f v := by
  simp only [Part.setOfLevel, Option.map_eq_none_iff, List.find?_eq_none, mem_allFixtures, forall_true_left, Bool.and_eq_true,
    decide_eq_true_eq, Part.setAsks]

theorem Part.channelOfLevel_eq_some {c : ChannelIx} :
    p.channelOfLevel v = some (.channel c) ↔ (p.ch c).asks = some v ∧ ∀ d, (p.ch d).asks = some v → c ≤ d := by
  simp only [Part.channelOfLevel, Option.map_eq_some_iff, find?_sorted_eq_some allChannels_sorted mem_allChannels, decide_eq_true_eq,
    RecordRequester.channel.injEq, exists_eq_right]

theorem Part.channelOfLevel_eq_none : p.channelOfLevel v = none ↔ ∀ c, (p.ch c).asks ≠ some v := by
  simp only [Part.channelOfLevel, Option.map_eq_none_iff, List.find?_eq_none, mem_allChannels, forall_true_left, decide_eq_true_eq]

theorem Part.setOfLevel_ne_channel {c : ChannelIx} : p.setOfLevel v ≠ some (.channel c) := by
  simp [Part.setOfLevel]

theorem Part.channelOfLevel_ne_setStep {f : FixtureIx} : p.channelOfLevel v ≠ some (.setStep f) := by
  simp [Part.channelOfLevel]

/-- No request of a level waits. -/
def Part.quietAt (p : Part) (v : Level) : Prop := (∀ f, ¬ p.setAsks f v) ∧ ∀ c, (p.ch c).asks ≠ some v

theorem Part.ofLevel_eq_none : (p.setOfLevel v).or (p.channelOfLevel v) = none ↔ p.quietAt v := by
  rw [Option.or_eq_none_iff, Part.setOfLevel_eq_none, Part.channelOfLevel_eq_none, Part.quietAt]

theorem Part.ofLevel_eq_setStep {f : FixtureIx} : (p.setOfLevel v).or (p.channelOfLevel v) = some (.setStep f) ↔
    p.setAsks f v ∧ ∀ g, p.setAsks g v → f ≤ g := by
  rw [Option.or_eq_some_iff, Part.setOfLevel_eq_some]
  exact or_iff_left fun h => Part.channelOfLevel_ne_setStep h.2

theorem Part.ofLevel_eq_channel {c : ChannelIx} : (p.setOfLevel v).or (p.channelOfLevel v) = some (.channel c) ↔
    (∀ f, ¬ p.setAsks f v) ∧ (p.ch c).asks = some v ∧ ∀ d, (p.ch d).asks = some v → c ≤ d := by
  rw [Option.or_eq_some_iff, Part.setOfLevel_eq_none, Part.channelOfLevel_eq_some]
  exact or_iff_right Part.setOfLevel_ne_channel

end

section
variable {p : Part}

theorem Part.nextRecord_setStep {f : FixtureIx} : p.nextRecord = some (.setStep f) ↔
    ∃ v, (p.setAsks f v ∧ ∀ g, p.setAsks g v → f ≤ g) ∧ ∀ w, w < v → p.quietAt w := by
  simp only [Part.nextRecord, findSome?_sorted_eq_some allLevels_sorted mem_allLevels, Part.ofLevel_eq_setStep, Part.ofLevel_eq_none]

theorem Part.nextRecord_channel {c : ChannelIx} : p.nextRecord = some (.channel c) ↔
    ∃ v, ((∀ f, ¬ p.setAsks f v) ∧ (p.ch c).asks = some v ∧ ∀ d, (p.ch d).asks = some v → c ≤ d) ∧ ∀ w, w < v → p.quietAt w := by
  simp only [Part.nextRecord, findSome?_sorted_eq_some allLevels_sorted mem_allLevels, Part.ofLevel_eq_channel, Part.ofLevel_eq_none]

theorem Part.nextRecord_none : p.nextRecord = none ↔ ∀ v, p.quietAt v := by
  simp only [Part.nextRecord, List.findSome?_eq_none_iff, mem_allLevels, forall_true_left, Part.ofLevel_eq_none]

theorem Part.tryGrant_none (h : p.nextRecord = none) : p.tryGrant = p := by
  unfold Part.tryGrant
  rw [h]
  split <;> rfl

end

/-- Settles O37: the levels in order, SET steps before channels, and the lowest number. -/
theorem arbiterChoosesByLevelKindAndNumber : Obligations.ArbiterChoosesByLevelKindAndNumber := by
  unfold Obligations.ArbiterChoosesByLevelKindAndNumber
  refine ⟨fun p f => ?set, fun p c => ?channel, fun p => ?nobody, fun s hp => ⟨fun h => ?_, fun h => ?_, fun t ht => ?_⟩⟩
  case set =>
    rw [Part.nextRecord_setStep]
    constructor
    · rintro ⟨v, ⟨⟨hset, rfl⟩, hlow⟩, hquiet⟩
      refine ⟨hset, fun g hg => ?_, fun c w hw => ?_⟩
      · rcases lt_trichotomy (p.fx f).run.priority (p.fx g).run.priority with h | h | h
        · exact .inl h
        · exact .inr ⟨h, hlow g ⟨hg, h.symm⟩⟩
        · exact absurd ⟨hg, rfl⟩ ((hquiet _ h).1 g)
      · by_contra h
        exact (hquiet w (not_le.mp h)).2 c hw
    · rintro ⟨hset, hlow, hch⟩
      refine ⟨_, ⟨⟨hset, rfl⟩, fun g hg => ?_⟩, fun w hw => ⟨fun g hg => ?_, fun c hc => ?_⟩⟩
      · rcases hlow g hg.1 with h | h
        · rw [hg.2] at h; exact absurd h (lt_irrefl _)
        · exact h.2
      · have hlt : (p.fx g).run.priority < (p.fx f).run.priority := by rw [hg.2]; exact hw
        rcases hlow g hg.1 with h | h
        · exact lt_asymm h hlt
        · rw [h.1] at hlt; exact lt_irrefl _ hlt
      · exact not_le.mpr hw (hch c w hc)
  case channel =>
    rw [Part.nextRecord_channel]
    constructor
    · rintro ⟨v, ⟨hset, hc, hlow⟩, hquiet⟩
      refine ⟨v, hc, fun d w hd => ?_, fun g hg => ?_⟩
      · rcases lt_trichotomy v w with h | rfl | h
        · exact .inl h
        · exact .inr ⟨rfl, hlow d hd⟩
        · exact absurd hd ((hquiet w h).2 d)
      · rcases lt_trichotomy v (p.fx g).run.priority with h | h | h
        · exact h
        · exact absurd ⟨hg, h.symm⟩ (hset g)
        · exact absurd ⟨hg, rfl⟩ ((hquiet _ h).1 g)
    · rintro ⟨v, hc, hlow, hset⟩
      refine ⟨v, ⟨fun f hf => ?_, hc, fun d hd => ?_⟩, fun w hw => ⟨fun f hf => ?_, fun d hd => ?_⟩⟩
      · have h := hset f hf.1; rw [hf.2] at h; exact lt_irrefl _ h
      · exact (hlow d v hd).elim (fun h => absurd h (lt_irrefl _)) And.right
      · have h := hset f hf.1; rw [hf.2] at h; exact lt_asymm h hw
      · rcases hlow d w hd with h | h
        · exact lt_asymm h hw
        · rw [h.1] at hw; exact lt_irrefl _ hw
  case nobody =>
    rw [Part.nextRecord_none]
    refine ⟨fun h => ⟨fun f => ?_, fun c => ?_⟩, fun ⟨hset, hch⟩ v => ⟨fun f hf => ?_, fun c hc => ?_⟩⟩
    · exact Option.not_isSome_iff_eq_none.mp fun hf => (h _).1 f ⟨hf, rfl⟩
    · exact Option.eq_none_iff_forall_ne_some.mpr fun v hv => (h v).2 c hv
    · rw [Part.setAsks, hset f] at hf; cases hf.1
    · rw [hch c] at hc; cases hc
  · have hq : s.part.tryGrant = s.part := h.elim (fun h => Part.tryGrant_busy (Option.isSome_iff_ne_none.mpr h)) Part.tryGrant_none
    exact State.event_next (q := s.part) hp hq
  · have hq : s.part.transferOver = s.part := by rw [Part.transferOver, h]
    exact State.event_next (q := s.part) hp hq
  · intro p
    have hover : s.part.transferOver = p.tryGrant := by rw [Part.transferOver, ht]
    have hend : exec .transferEnd s = .next (s.withPart p.tryGrant) := State.event_next hp hover
    refine ⟨hend.trans (State.event_next (s := s.withPart p) ?_ rfl).symm, fun h => ?_⟩
    · exact (Part.advanceTo_powered _ _).trans hp
    · rw [hend, Part.tryGrant_none h]

end Sys2Proof.Machine
end

section
/-! PROOFS. A SET step's record at its target (sections 2.2, 3.2 and 4.4). -/

namespace Sys2Proof.Machine

open Sys2Proof

/-! ## A fixture put in place -/

/-- A fixture put in its place. -/
def Part.putFx (f : FixtureIx) (y : Fixture) (p : Part) : Part := p.modFx f fun _ => y

/-- A fixture whose step in flight has ended with its result. -/
def Fixture.resulted (i : InFlight) (up : BitVec 32) (e : StepEnd) (y : Fixture) : Fixture :=
  y.withResult (y.recordFor i.step i.startedAt up e)

/-- A fixture in an ACTIVE run with its last step in flight, under the policy CONTINUE. -/
structure Fixture.Awaits (i : InFlight) (y : Fixture) : Prop where
  inflight : y.inflight = some i
  plain : i.progress = .plain
  active : y.run.state = .active
  policy : y.run.policy = .cont
  queue : y.queue = []

theorem Fixture.Awaits.of_same {i : InFlight} {x y : Fixture} (h : x.Awaits i) (hi : y.inflight = x.inflight) (hr : y.run = x.run)
    (hq : y.queue = x.queue) : y.Awaits i :=
  ⟨hi.trans h.inflight, h.plain, by rw [hr, h.active], by rw [hr, h.policy], hq.trans h.queue⟩

section
variable {p q : Part} {f : FixtureIx} {y z : Fixture} {i : InFlight} {e : StepEnd}

theorem Part.putFx_fx (p : Part) (f : FixtureIx) (y : Fixture) : (p.putFx f y).fx f = y := Part.modFx_fx p f _

theorem Part.putFx_putFx (p : Part) (f : FixtureIx) (y z : Fixture) : (p.putFx f y).putFx f z = p.putFx f z :=
  Part.modFx_modFx p f _ _

theorem Part.putFx_self (p : Part) (f : FixtureIx) : p.putFx f (p.fx f) = p := Part.modFx_self rfl

theorem Part.modFx_eq_putFx (p : Part) (f : FixtureIx) (g : Fixture → Fixture) : p.modFx f g = p.putFx f (g (p.fx f)) :=
  Part.modFx_congr rfl

theorem Part.putFx_withSupply (p : Part) (f : FixtureIx) (y : Fixture) (v : Supply) :
    (p.putFx f y).withSupply f v = p.putFx f { y with supply := v } := Part.modFx_modFx p f _ _

theorem Part.putFx_closeStep (h : y.Awaits i) (p : Part) (f : FixtureIx) (e : StepEnd) :
    (p.putFx f y).closeStep f e = p.putFx f (y.resulted i p.uptime e) := by
  have hi : ((p.putFx f y).fx f).inflight = some i := by rw [Part.putFx_fx]; exact h.inflight
  have hc : ((p.putFx f y).fx f).run.policy = .cont := by rw [Part.putFx_fx]; exact h.policy
  rw [Part.closeStep_quiet hi (.inl hc), Part.releaseStep_plain hi h.plain]
  exact Part.modFx_modFx p f _ _

theorem Part.putFx_runQueueBusy (hq : y.queue = []) (ha : y.run.state = .active) (p : Part) (f : FixtureIx) :
    (p.putFx f y).runQueueBusy f = p.putFx f y :=
  Part.runQueueBusy_idle (by rw [Part.putFx_fx]; exact hq) (by rw [Part.putFx_fx]; exact ha)

/-! ## The grant of a SET step -/

theorem Part.grantSet_applied {r : List Byte} {t : Target} {out : Applied} {w : Follow} (hi : (p.fx f).inflight = some i)
    (hb : i.step.body = .set r) (ht : parseRecord r = some t) (ha : p.applyTarget f t = (q.putFx f y, out, w)) (h : y.Awaits i) :
    p.grantSet f = ((q.putFx f (y.resulted i q.uptime out.setEnd)).follow Part.runQueueBusy f w).runQueueBusy f := by
  have hr : (p.fx f).setRecord = some r := by rw [Fixture.setRecord, hi]; simp only [hb]
  have hrec : p.applyRecord f r = (q.putFx f y, out, w) := by rw [Part.applyRecord, ht]; exact ha
  rw [Part.grantSet, hr]
  simp only [hrec]
  rw [Part.putFx_closeStep h]

/-- A grant whose record leaves a quiet run. -/
theorem Part.grantSet_quiet {r : List Byte} {t : Target} {out : Applied} {w : Follow} {q' : Part} {y' : Fixture}
    (hi : (p.fx f).inflight = some i) (hb : i.step.body = .set r) (ht : parseRecord r = some t)
    (ha : p.applyTarget f t = (q.putFx f y, out, w)) (h : y.Awaits i)
    (hw : (q.putFx f (y.resulted i q.uptime out.setEnd)).follow Part.runQueueBusy f w = q'.putFx f y')
    (hq : y'.queue = []) (hs : y'.run.state = .active) : p.grantSet f = q'.putFx f y' := by
  rw [Part.grantSet_applied hi hb ht ha h, hw, Part.putFx_runQueueBusy hq hs]

/-! ## What follows -/

theorem Fixture.waitingFor_none (h : y.inflight = none) : y.waitingFor = none := by rw [Fixture.waitingFor, h]

/-- With no step that waits on a line and an idle capture unit nobody hears a line. -/
theorem Part.lineReaction_unheard (rq : Examine) (hw : ∀ l v, (p.fx f).waitingFor ≠ some (.line l v))
    (hc : (p.fx f).capture.state = .idle) (before : Outputs) : p.lineReaction rq f before = p := by
  unfold Part.lineReaction
  dsimp only
  split
  · rename_i l v h
    exact absurd h (hw l v)
  · exact if_pos hc

theorem Part.follow_lines (rq : Examine) (hi : z.inflight = none) (hc : z.capture.state = .idle) (before : Outputs) :
    (p.putFx f z).follow rq f (.lines before) = p.putFx f z := by
  refine Part.lineReaction_unheard rq (fun l v => ?_) (by rw [Part.putFx_fx]; exact hc) before
  rw [Part.putFx_fx, Fixture.waitingFor_none hi]
  nofun

theorem Part.follow_ramp_stays (rq : Examine) (h : ¬ (z.supply.state = .ramp ∧ z.supply.inRegulation = true)) :
    (p.putFx f z).follow rq f .ramp = p.putFx f z := if_neg (by rw [Part.putFx_fx]; exact h)

/-- In regulation with no current at the limit: RAMP goes to ON. -/
theorem Part.follow_ramp_on (rq : Examine) (hi : z.inflight = none) (hs : z.supply.state = .ramp) (hr : z.supply.inRegulation = true)
    (ha : z.supply.atLimit = false) :
    (p.putFx f z).follow rq f .ramp = p.putFx f { z with supply :=
      { z.supply with state := .on, since := p.clock, atLimit := false } } := by
  have hx := p.putFx_fx f z
  have hheld : z.supply.heldAtLimit = false := by rw [Supply.heldAtLimit, ha]; rfl
  have hself : (p.putFx f z).withSupply f z.supply = p.putFx f z := Part.putFx_withSupply p f z z.supply
  have hentered : (p.putFx f z).onEntered f z.supply =
      p.putFx f { z with supply := { z.supply with state := .on, since := p.clock, atLimit := false } } := by
    rw [Part.onEntered, hheld]
    exact Part.putFx_withSupply _ _ _ _
  have hon := Part.enterOn_withSupply (p := p.putFx f z) (f := f) rq (v := z.supply) fun k => by rw [hheld] at k; cases k
  rw [hself, hentered, Part.onMet_unmet rq fun i h => by rw [Part.putFx_fx] at h; exact absurd h (by rw [hi]; nofun)] at hon
  have hcond : ((p.putFx f z).fx f).supply.state = .ramp ∧ ((p.putFx f z).fx f).supply.inRegulation = true := by
    rw [hx]; exact ⟨hs, hr⟩
  exact (if_pos hcond).trans hon

theorem Part.follow_cut (rq : Examine) (hi : z.inflight = none) : (p.putFx f z).follow rq f .cut = p.putFx f z := by
  show (p.putFx f z).afterCut rq f = _
  rw [Part.afterCut, Part.putFx_fx, hi]

end

/-- What a record clamped or not ends its step with. -/
theorem clampedIf_setEnd {b same : Bool} (h : b = !same) :
    (clampedIf b).setEnd = { verdict := .pass, reason := if same then .none else .clamped } := by
  subst h
  cases same <;> rfl

/-! ## SUPPLY_LIMIT's consequences -/

section
variable {p : Part} {f : FixtureIx} {old : Nat}

theorem Part.onMet_none (rq : Examine) (h : (p.fx f).inflight = none) : p.onMet rq f = p :=
  Part.onMet_unmet rq fun i k => by rw [h] at k; cases k

theorem Part.afterLimits_dead (rq : Examine)
    (h : (p.fx f).supply.state = .off ∨ (p.fx f).supply.state = .discharge ∨ (p.fx f).supply.state = .tripped) :
    p.afterLimits rq f old = p := by
  unfold Part.afterLimits
  rcases h with h | h | h <;> simp only [h]

theorem Part.afterLimits_ramp (rq : Examine) (h : (p.fx f).supply.state = .ramp) :
    p.afterLimits rq f old =
      if (p.fx f).supply.atLimit = true ∧ ({ (p.fx f).supply with limit := old } : Supply).softStart < (p.fx f).supply.softStart then
        p.withSupply f { (p.fx f).supply with atLimit := false }
      else if (p.fx f).supply.atLimit = false ∧ (p.fx f).supply.softStart < ({ (p.fx f).supply with limit := old } : Supply).softStart then
        p.used.withSupply f { (p.fx f).supply with atLimit := p.free }
      else p := by
  unfold Part.afterLimits
  simp only [h, Part.modSupply_eq, Part.used_fx]

theorem Part.afterLimits_on (rq : Examine) (h : (p.fx f).supply.state = .on) :
    p.afterLimits rq f old =
      if (p.fx f).supply.limit < old ∧ (p.fx f).supply.range = .high then
        if p.free then p.used.withSupplyTold f { (p.fx f).supply with atLimit := true, state := .limit, since := p.clock } else p.used
      else p := by
  unfold Part.afterLimits
  simp only [h, Part.modSupply_eq, Part.used_fx]
  split
  next hc =>
    split
    next =>
      rw [Part.enterLimit_of_high (by rw [Part.withSupply_fx]; exact hc.2), Part.withSupply_fx, Part.withSupply_told]
      rfl
    next => rfl
  next => rfl

theorem Part.limitSpent_iff : p.limitSpent f = true ↔ (p.fx f).supply.since + (p.fx f).supply.limitTime * 1000 ≤ p.clock :=
  decide_eq_true_iff

theorem Part.backToOn_none (rq : Examine) (h : (p.fx f).inflight = none) :
    p.backToOn rq f = p.withSupply f { (p.fx f).supply with state := .on, since := p.clock, atLimit := false } := by
  rw [Part.backToOn_eq, Part.onMet_none rq (by rw [Part.withSupply_fx]; exact h)]

theorem Part.afterLimits_limit (rq : Examine) (h : (p.fx f).supply.state = .limit) (hi : (p.fx f).inflight = none) :
    p.afterLimits rq f old =
      if old < (p.fx f).supply.limit then
        if (p.fx f).supply.since + (p.fx f).supply.limitTime * 1000 ≤ p.clock then
          if p.free then p.used.withSupply f { (p.fx f).supply with state := .on, since := p.clock, atLimit := false }
          else p.used.tripSupply f .overcurrent
        else p.withSupply f { (p.fx f).supply with state := .on, since := p.clock, atLimit := false }
      else if (p.fx f).supply.since + (p.fx f).supply.limitTime * 1000 ≤ p.clock then p.tripSupply f .overcurrent
      else p := by
  unfold Part.afterLimits
  simp only [h, Part.backToOn_none rq hi, Part.backToOn_none (p := p.used) rq hi, Bool.and_eq_true, decide_eq_true_eq,
    Part.limitSpent_iff]
  split_ifs <;> simp_all

end

end Sys2Proof.Machine
end

section
/-! PROOFS. The grant of a SET step, by what its record reaches (chapters 3, 5 and 6). -/

namespace Sys2Proof.Machine

open Sys2Proof

/-! ## A trip that a record brings -/

section
variable {p q : Part} {f : FixtureIx}

theorem Part.endRun_log (p : Part) (f : FixtureIx) : ((p.endRun f).fx f).log = (p.fx f).log := by
  unfold Part.endRun
  split
  · rw [Part.postRunState, Part.post_fx, Part.modFx_fx]
  · rfl

/-- A trip with no step in flight adds no record. -/
theorem Part.tripSupply_log (ho : (p.fx f).run.isOpen = true) (hi : (p.fx f).inflight = none) (r : TripReason) :
    ((p.tripSupply f r).fx f).log = (p.fx f).log := by
  have hx := p.tripShown_fx f r
  have ho' : ((p.tripShown f r).fx f).run.isOpen = true := by rw [hx]; exact ho
  have hin : ((p.tripShown f r).fx f).inflight = none := by rw [hx]; exact congrArg (Option.map InFlight.unbelow) hi
  have hlog := (Part.enterHalting_halted ho' .supplyTrip).log
  rw [hin, List.append_nil, hx] at hlog
  rw [Part.tripSupply_eq, Part.haltRequest_open ho', Part.endRun_log, hlog]
  rfl

theorem Part.runQueueBusy_closed (h : (p.fx f).run.isOpen = false) : p.runQueueBusy f = p := Part.runQueueWith_closed h

theorem Part.tripSupply_notOpen (ho : (p.fx f).run.isOpen = true) (r : TripReason) : ((p.tripSupply f r).fx f).run.isOpen = false := by
  obtain ⟨_, _, _, _, hstate⟩ := (p.tripSupply_facts f r).2.2.2.2.2.1 ho
  rw [Run.isOpen, hstate]
  split <;> rfl

end

/-! ## The grant -/

/-- A fixture's SET step waits for its grant, alone in an ACTIVE run under CONTINUE. -/
structure Part.SetWaits (f : FixtureIx) (i : InFlight) (r : List Byte) (p : Part) : Prop where
  awaits : (p.fx f).Awaits i
  body : i.step.body = .set r

section
variable {p q q' : Part} {f : FixtureIx} {i : InFlight} {r : List Byte} {t : Target} {out : Applied} {w : Follow} {y y' : Fixture}

theorem Part.SetWaits.grant (h : p.SetWaits f i r) (ht : parseRecord r = some t) (ha : p.applyTarget f t = (q.putFx f y, out, w))
    (hy : y.Awaits i)
    (hw : (q.putFx f (y.resulted i q.uptime out.setEnd)).follow Part.runQueueBusy f w = q'.putFx f (y'.resulted i q.uptime out.setEnd))
    (hq : y'.queue = []) (hs : y'.run.state = .active) : p.grantSet f = q'.putFx f (y'.resulted i q.uptime out.setEnd) :=
  Part.grantSet_quiet h.awaits.inflight h.body ht ha hy hw hq hs

/-- A record with nothing to follow. -/
theorem Part.SetWaits.grant_done (h : p.SetWaits f i r) (ht : parseRecord r = some t)
    (ha : p.applyTarget f t = (q.putFx f y, out, .nothing)) (hy : y.Awaits i) :
    p.grantSet f = q.putFx f (y.resulted i q.uptime out.setEnd) :=
  h.grant ht ha hy rfl hy.queue hy.active

/-- A record that changes nothing. -/
theorem Part.SetWaits.grant_same (h : p.SetWaits f i r) (ht : parseRecord r = some t) (ha : p.applyTarget f t = (p, out, .nothing)) :
    p.grantSet f = p.putFx f ((p.fx f).resulted i p.uptime out.setEnd) :=
  h.grant_done ht (by rw [ha, Part.putFx_self]) h.awaits

/-- A record at the outputs. -/
theorem Part.SetWaits.grant_outs (h : p.SetWaits f i r) (ht : parseRecord r = some t) {g : Outputs → Outputs}
    (ha : p.applyTarget f t = (p.modOuts f g, out, .nothing)) :
    p.grantSet f = p.putFx f ({ p.fx f with outs := g (p.fx f).outs }.resulted i p.uptime out.setEnd) :=
  h.grant_done ht (by rw [ha, Part.modOuts, Part.modFx_eq_putFx]) (h.awaits.of_same rfl rfl rfl)

/-- A record at the lines, with an idle capture unit. -/
theorem Part.SetWaits.grant_lines (h : p.SetWaits f i r) (ht : parseRecord r = some t) {g : Outputs → Outputs} {before : Outputs}
    (ha : p.applyTarget f t = (p.modOuts f g, out, .lines before)) (hc : (p.fx f).capture.state = .idle) :
    p.grantSet f = p.putFx f ({ p.fx f with outs := g (p.fx f).outs }.resulted i p.uptime out.setEnd) :=
  h.grant (w := .lines before) (y := { p.fx f with outs := g (p.fx f).outs }) ht (by rw [ha, Part.modOuts,
      Part.modFx_eq_putFx]) (h.awaits.of_same rfl rfl rfl)
    (Part.follow_lines (z := { p.fx f with outs := g (p.fx f).outs }.resulted i p.uptime out.setEnd) Part.runQueueBusy rfl hc before)
    h.awaits.queue h.awaits.active

/-- A record at the port. -/
theorem Part.SetWaits.grant_port (h : p.SetWaits f i r) (ht : parseRecord r = some t) {g : Port → Port}
    (ha : p.applyTarget f t = (p.modPort f g, out, .nothing)) :
    p.grantSet f = p.putFx f ({ p.fx f with port := g (p.fx f).port }.resulted i p.uptime out.setEnd) :=
  h.grant_done ht (by rw [ha, Part.modPort, Part.modFx_eq_putFx]) (h.awaits.of_same rfl rfl rfl)

theorem Part.withSupply_eq_putFx (hq : q.fx f = p.fx f) (v : Supply) : q.withSupply f v = q.putFx f { p.fx f with supply := v } := by
  rw [Part.withSupply, Part.modFx_eq_putFx, hq]

/-- A record at the supply that leaves it in RAMP, or finds it in another state. -/
theorem Part.SetWaits.grant_ramp_stays (h : p.SetWaits f i r) (ht : parseRecord r = some t) {v : Supply}
    (ha : p.applyTarget f t = (q.withSupply f v, out, .ramp)) (hq : q.fx f = p.fx f)
    (hv : ¬ (v.state = .ramp ∧ v.inRegulation = true)) :
    p.grantSet f = q.putFx f ({ p.fx f with supply := v }.resulted i q.uptime out.setEnd) :=
  h.grant (w := .ramp) (y := { p.fx f with supply := v }) ht (by rw [ha, Part.withSupply_eq_putFx hq]) (h.awaits.of_same rfl rfl rfl)
    (Part.follow_ramp_stays Part.runQueueBusy hv) h.awaits.queue h.awaits.active

/-- A record at the supply that brings it from RAMP to ON. -/
theorem Part.SetWaits.grant_ramp_on (h : p.SetWaits f i r) (ht : parseRecord r = some t) {v : Supply}
    (ha : p.applyTarget f t = (q.withSupply f v, out, .ramp)) (hq : q.fx f = p.fx f) (hs : v.state = .ramp)
    (hr : v.inRegulation = true) (hl : v.atLimit = false) :
    p.grantSet f = q.putFx f
      ({ p.fx f with supply := { v with state := .on, since := q.clock, atLimit := false } }.resulted i q.uptime out.setEnd) :=
  h.grant (w := .ramp) (y := { p.fx f with supply := v }) ht (by rw [ha, Part.withSupply_eq_putFx hq]) (h.awaits.of_same rfl rfl rfl)
    (Part.follow_ramp_on Part.runQueueBusy rfl hs hr hl) h.awaits.queue h.awaits.active

/-- SUPPLY_LIMIT's record, up to what follows from it. -/
def Part.limitStored (f : FixtureIx) (i : InFlight) (e : StepEnd) (v : Supply) (p : Part) : Part :=
  p.putFx f ({ p.fx f with supply := v }.resulted i p.uptime e)

theorem Part.limitStored_fx (p : Part) (f : FixtureIx) (i : InFlight) (e : StepEnd) (v : Supply) :
    ((p.limitStored f i e v).fx f).supply = v ∧ ((p.limitStored f i e v).fx f).inflight = none ∧
      ((p.limitStored f i e v).fx f).run.state = (p.fx f).run.state ∧
      ((p.limitStored f i e v).fx f).log = (p.fx f).log ++ [(p.fx f).recordFor i.step i.startedAt p.uptime e] := by
  rw [Part.limitStored, Part.putFx_fx]
  exact ⟨rfl, rfl, rfl, rfl⟩

theorem Part.SetWaits.grant_limits (h : p.SetWaits f i r) (ht : parseRecord r = some t) {v : Supply} {old : Nat}
    (ha : p.applyTarget f t = (p.withSupply f v, out, .limits old)) :
    p.grantSet f = ((p.limitStored f i out.setEnd v).afterLimits Part.runQueueBusy f old).runQueueBusy f := by
  have hy : Fixture.Awaits i { p.fx f with supply := v } := h.awaits.of_same rfl rfl rfl
  have ha' : p.applyTarget f t = (p.putFx f { p.fx f with supply := v }, out, .limits old) := by
    rw [ha, Part.withSupply_eq_putFx rfl]
  have e := Part.grantSet_applied h.awaits.inflight h.body ht ha' hy
  rw [Part.follow] at e
  exact e

/-- What follows is a supply set, after which the run is quiet. -/
theorem Part.limitStored_settles {e : StepEnd} {v v' : Supply} (ha : (p.fx f).Awaits i) :
    ((p.limitStored f i e v).withSupply f v').runQueueBusy f = p.limitStored f i e v' ∧
    ((p.limitStored f i e v).used.withSupply f v').runQueueBusy f = p.used.limitStored f i e v' ∧
    ((p.limitStored f i e v).used.withSupplyTold f v').runQueueBusy f = p.used.limitStored f i e v' ∧
    (p.limitStored f i e v).used.runQueueBusy f = p.used.limitStored f i e v ∧
    (p.limitStored f i e v).runQueueBusy f = p.limitStored f i e v := by
  have quiet : ∀ (q : Part) (v : Supply), q.fx f = p.fx f → (q.limitStored f i e v).runQueueBusy f = q.limitStored f i e v := by
    intro q v hq
    refine Part.putFx_runQueueBusy ?_ ?_ q f
    · rw [hq]; exact ha.queue
    · rw [hq]; exact ha.active
  have set_ : ∀ q : Part, (q.limitStored f i e v).withSupply f v' = q.limitStored f i e v' := fun q => Part.putFx_withSupply q f _ v'
  have told : (p.used.limitStored f i e v).withSupplyTold f v' = p.used.limitStored f i e v' := by
    rw [Part.limitStored, Part.limitStored, Part.withSupplyTold, Part.modFx_eq_putFx, Part.putFx_fx, Part.putFx_putFx]
    rfl
  have hused : (p.limitStored f i e v).used = p.used.limitStored f i e v := rfl
  rw [hused, set_, set_, told]
  have hx : p.used.fx f = p.fx f := rfl
  exact ⟨quiet p v' rfl, quiet p.used v' hx, quiet p.used v' hx, quiet p.used v hx, quiet p v rfl⟩

end

end Sys2Proof.Machine
end

section
/-! PROOFS. Supply records in every state, and every target of a SET step (section 3.2). -/

namespace Sys2Proof.Machine

open Sys2Proof

section
variable {p : Part} {f : FixtureIx} {mv : Nat}

/-! ## SUPPLY_VOLTS -/

/-- A supply with its setpoint moved and its in-regulation comparator at a level. -/
def Supply.movedTo (mv : Nat) (holds : Bool) (s : Supply) : Supply := { s with setpoint := mv, inRegulation := holds }

theorem Part.put_moved (q : Part) (hq : q.fx f = p.fx f) (b : Bool) :
    q.modSupply f (fun s => { s with setpoint := mv, inRegulation := b }) = q.withSupply f ((p.fx f).supply.movedTo mv b) := by
  rw [Part.modSupply_eq, hq]
  rfl

theorem Part.moveSetpoint_zero : p.moveSetpoint f 0 = p.withSupply f ((p.fx f).supply.movedTo 0 true) :=
  Part.put_moved p rfl true

theorem Part.moveSetpoint_same (h : mv = (p.fx f).supply.setpoint) (h0 : mv ≠ 0) :
    p.moveSetpoint f mv = p.withSupply f ((p.fx f).supply.movedTo mv (p.fx f).supply.inRegulation) := by
  have hself : p.withSupply f ((p.fx f).supply.movedTo mv (p.fx f).supply.inRegulation) = p := by
    rw [h]
    exact Part.modFx_self rfl
  rw [hself]
  unfold Part.moveSetpoint
  dsimp only
  rw [if_neg h0, if_pos h]

theorem Part.moveSetpoint_down (h : mv ≠ (p.fx f).supply.setpoint) (h0 : mv ≠ 0)
    (hd : (p.fx f).supply.state = .off ∨ (p.fx f).supply.state = .tripped ∨ (p.fx f).supply.below500 = true) :
    p.moveSetpoint f mv = p.withSupply f ((p.fx f).supply.movedTo mv false) := by
  unfold Part.moveSetpoint
  dsimp only
  rw [if_neg h0, if_neg h, if_pos hd]
  exact Part.put_moved p rfl false

theorem Part.moveSetpoint_up (h : mv ≠ (p.fx f).supply.setpoint) (h0 : mv ≠ 0)
    (hd : ¬ ((p.fx f).supply.state = .off ∨ (p.fx f).supply.state = .tripped ∨ (p.fx f).supply.below500 = true)) :
    p.moveSetpoint f mv =
      if (mv < (p.fx f).supply.setpoint) = ((p.fx f).supply.inRegulation = true) then
        p.withSupply f ((p.fx f).supply.movedTo mv (p.fx f).supply.inRegulation)
      else p.used.withSupply f ((p.fx f).supply.movedTo mv p.free) := by
  unfold Part.moveSetpoint
  dsimp only
  rw [if_neg h0, if_neg h, if_neg hd, Part.put_moved p rfl, Part.put_moved p.used rfl, Part.used_fx]

/-- A setpoint that moves up, or an output below 500 mV, does not bring the output into regulation. -/
theorem Part.moveSetpoint_stays (hr : (p.fx f).supply.inRegulation = false) (h0 : mv ≠ 0)
    (h : (p.fx f).supply.setpoint ≤ mv ∨ (p.fx f).supply.below500 = true) :
    p.moveSetpoint f mv = p.withSupply f ((p.fx f).supply.movedTo mv false) := by
  by_cases hs : mv = (p.fx f).supply.setpoint
  · rw [Part.moveSetpoint_same hs h0, hr]
  by_cases hd : (p.fx f).supply.state = .off ∨ (p.fx f).supply.state = .tripped ∨ (p.fx f).supply.below500 = true
  · exact Part.moveSetpoint_down hs h0 hd
  · have hle := h.resolve_right fun k => hd (.inr (.inr k))
    rw [Part.moveSetpoint_up hs h0 hd, if_pos (propext (iff_of_false (not_lt.mpr hle) (by rw [hr]; decide))), hr]

/-- With the output disconnected or below 500 mV the comparator's level is certain. -/
theorem Part.moveSetpoint_certain
    (hd : (p.fx f).supply.state = .off ∨ (p.fx f).supply.state = .tripped ∨ (p.fx f).supply.below500 = true) :
    p.moveSetpoint f mv = p.withSupply f ((p.fx f).supply.movedTo mv
      (decide (mv = 0) || (decide (mv = (p.fx f).supply.setpoint) && (p.fx f).supply.inRegulation))) := by
  by_cases h0 : mv = 0
  · subst h0
    exact Part.moveSetpoint_zero
  · by_cases h : mv = (p.fx f).supply.setpoint
    · rw [Part.moveSetpoint_same h h0, decide_eq_false h0, decide_eq_true h, Bool.false_or, Bool.true_and]
    · rw [Part.moveSetpoint_down h h0 hd, decide_eq_false h0, decide_eq_false h, Bool.false_or, Bool.false_and]

/-- What a moved setpoint makes of the comparator: certain where the move cannot reach it, else free. -/
theorem Part.moveSetpoint_some (p : Part) (f : FixtureIx) (mv : Nat) :
    ∃ (q : Part) (b : Bool), (q = p ∨ q = p.used) ∧ p.moveSetpoint f mv = q.withSupply f ((p.fx f).supply.movedTo mv b) ∧
      (mv = 0 → b = true) ∧
      (mv ≠ 0 → mv ≤ (p.fx f).supply.setpoint → (p.fx f).supply.inRegulation = true → (p.fx f).supply.below500 = false →
        (p.fx f).supply.state ≠ .off → (p.fx f).supply.state ≠ .tripped → b = true) ∧
      ((p.fx f).supply.setpoint ≤ mv → mv ≠ 0 → (p.fx f).supply.inRegulation = false → b = false) ∧
      (mv ≠ 0 → (p.fx f).supply.below500 = true → (p.fx f).supply.inRegulation = false → b = false) := by
  by_cases h0 : mv = 0
  · subst h0
    exact ⟨p, true, .inl rfl, Part.moveSetpoint_zero, fun _ => rfl, fun k => absurd rfl k, fun _ k => absurd rfl k,
      fun k => absurd rfl k⟩
  by_cases h : mv = (p.fx f).supply.setpoint
  · exact ⟨p, _, .inl rfl, Part.moveSetpoint_same h h0, fun k => absurd k h0, fun _ _ k _ _ _ => k, fun _ _ k => k, fun _ _ k => k⟩
  by_cases hd : (p.fx f).supply.state = .off ∨ (p.fx f).supply.state = .tripped ∨ (p.fx f).supply.below500 = true
  · refine ⟨p, false, .inl rfl, Part.moveSetpoint_down h h0 hd, fun k => absurd k h0, fun _ _ _ hb h1 h2 => ?_, fun _ _ _ => rfl,
      fun _ _ _ => rfl⟩
    rcases hd with hd | hd | hd
    · exact absurd hd h1
    · exact absurd hd h2
    · rw [hb] at hd; cases hd
  · have hup := Part.moveSetpoint_up h h0 hd
    have hb : (p.fx f).supply.below500 ≠ true := fun k => hd (.inr (.inr k))
    by_cases hc : (mv < (p.fx f).supply.setpoint) = ((p.fx f).supply.inRegulation = true)
    · exact ⟨p, _, .inl rfl, hup.trans (if_pos hc), fun k => absurd k h0, fun _ _ k _ _ _ => k, fun _ _ k => k, fun _ _ k => k⟩
    · refine ⟨p.used, p.free, .inr rfl, hup.trans (if_neg hc), fun k => absurd k h0, fun _ hle hr _ _ _ => ?_, fun hle _ hr => ?_,
        fun _ k => absurd k hb⟩
      · exact absurd (propext (iff_of_true (lt_of_le_of_ne hle h) hr)) hc
      · exact absurd (propext (iff_of_false (not_lt.mpr hle) (by rw [hr]; decide))) hc

/-! ## SUPPLY_STATE -/

/-- A supply that ON starts. -/
def Supply.startable (s : Supply) : Prop := s.state = .off ∨ (s.state = .discharge ∧ s.tripReason = .none)

theorem Part.supplyOn_rackLow (h : (p.fx f).supply.startable) (hr : p.rack.level ≠ .normal) :
    p.supplyOn f = (p, .rackLow, .nothing) := by
  unfold Part.supplyOn
  dsimp only
  rcases h with h | h
  · rw [if_pos h, if_neg hr]
  · rw [if_neg (by rw [h.1]; decide), if_pos h, if_neg hr]

theorem Part.supplyOn_none (h : ¬ (p.fx f).supply.startable) : p.supplyOn f = (p, .asGiven, .nothing) := by
  unfold Part.supplyOn
  dsimp only
  rw [if_neg fun k => h (.inl k), if_neg fun k => h (.inr k)]

/-- ON starts a ramp; the output of a discharge may be in regulation already. -/
theorem Part.supplyOn_starts (h : (p.fx f).supply.startable) (hr : p.rack.level = .normal) :
    p.supplyOn f = (p.withSupply f { (p.fx f).supply with
      state := .ramp, since := p.clock
      inRegulation := (decide ((p.fx f).supply.state = .discharge) && (p.fx f).supply.inRegulation) ||
        decide ((p.fx f).supply.setpoint = 0) }, .asGiven, .ramp) := by
  unfold Part.supplyOn
  dsimp only
  rcases h with h | h
  · rw [if_pos h, if_pos hr, Part.enterSupply_eq, Part.modSupply_eq, Part.withSupply_fx, Part.withSupply_withSupply, h]
    rfl
  · rw [if_neg (by rw [h.1]; decide), if_pos h, if_pos hr, Part.enterSupply_eq, Part.modSupply_eq, Part.withSupply_fx,
      Part.withSupply_withSupply, h.1]
    rfl

/-- OFF disconnects a live supply on its HIGH range. -/
theorem Part.supplyOff_live (h : (p.fx f).supply.live = true) (hr : (p.fx f).supply.range = .high) {i : InFlight}
    (hi : (p.fx f).inflight = some i) (hg : i.progress = .plain) :
    p.supplyOff f = (p.putFx f { p.fx f with supply := (p.fx f).supply.cutWith .none p.clock }, .asGiven, .cut) := by
  have hconv : p.convHigh f = p.conv := if_neg (by rw [hr]; decide)
  have hu : i.unbelow = i := by rw [InFlight.unbelow, hg]
  have hx : (p.fx f).cutWith .none p.clock = { p.fx f with supply := (p.fx f).supply.cutWith .none p.clock } := by
    have hin : (p.fx f).unbelow = p.fx f := by rw [Fixture.unbelow, hi, Option.map_some, hu, ← hi]
    rw [Fixture.cutWith, hin]
  have hcut : p.disconnect f .none = p.putFx f { p.fx f with supply := (p.fx f).supply.cutWith .none p.clock } := by
    rw [Part.disconnect_whole, hconv, Part.modFx_eq_putFx, hx]
    rfl
  rw [Part.supplyOff, if_pos h, hcut]

end

end Sys2Proof.Machine
end

section
/-! PROOFS. Every target of a SET step's record (sections 2.2, 3.2 to 3.4, 4.4, 5.2 to 5.5 and 6.3). -/

namespace Sys2Proof.Machine

open Sys2Proof

section
variable {p : Part} {f : FixtureIx} {i : InFlight} {r : List Byte} {e : StepEnd}

/-- The supply once SUPPLY_VOLTS has been granted in RAMP or out of it. -/
theorem Part.SetWaits.grant_volts (h : p.SetWaits f i r) {mv : Nat} (ht : parseRecord r = some (.supplyVolts mv)) {q : Part} {v : Supply}
    (hm : p.moveSetpoint f (clampVolts mv) = q.withSupply f v) (hq : q.fx f = p.fx f)
    (hv : ¬ (v.state = .ramp ∧ v.inRegulation = true)) :
    p.grantSet f = q.putFx f ({ p.fx f with supply := v }.resulted i q.uptime (clampedIf (clampVolts mv != mv)).setEnd) :=
  h.grant_ramp_stays ht (congrArg (·, clampedIf (clampVolts mv != mv), Follow.ramp) hm) hq hv

theorem Part.SetWaits.grant_volts_on (h : p.SetWaits f i r) {mv : Nat} (ht : parseRecord r = some (.supplyVolts mv)) {q : Part}
    {v : Supply} (hm : p.moveSetpoint f (clampVolts mv) = q.withSupply f v) (hq : q.fx f = p.fx f) (hs : v.state = .ramp)
    (hr : v.inRegulation = true) (hl : v.atLimit = false) :
    p.grantSet f = q.putFx f ({ p.fx f with supply := { v with state := .on, since := q.clock, atLimit := false } }.resulted i q.uptime
      (clampedIf (clampVolts mv != mv)).setEnd) :=
  h.grant_ramp_on ht (congrArg (·, clampedIf (clampVolts mv != mv), Follow.ramp) hm) hq hs hr hl

/-- A trip that the limit timer brings once the record is stored. -/
theorem Part.limitStored_trips (ha : (p.fx f).Awaits i) (v : Supply) (q : Part) (hq : q.fx f = p.fx f) (hu : q.uptime = p.uptime) :
    let t := ((q.limitStored f i e v).tripSupply f .overcurrent).runQueueBusy f
    (t.fx f).supply.tripReason = .overcurrent ∧ (t.fx f).supply.state = (if v.below500 then .tripped else .discharge) ∧
      (t.fx f).run.haltReason = .supplyTrip ∧ (t.fx f).inflight = none ∧
      (t.fx f).log = (p.fx f).log ++ [(p.fx f).recordFor i.step i.startedAt p.uptime e] := by
  obtain ⟨hsup, hin, hrun, hlog⟩ := q.limitStored_fx f i e v
  have ho : ((q.limitStored f i e v).fx f).run.isOpen = true := by
    rw [Run.isOpen, hrun, hq, ha.active]
    rfl
  have hl := Part.tripSupply_log ho hin .overcurrent
  obtain ⟨_, _, hcut, _, _, hopen, _⟩ := (q.limitStored f i e v).tripSupply_facts f .overcurrent
  obtain ⟨hreason, _, hinflight, _⟩ := hopen ho
  rw [Part.runQueueBusy_closed (Part.tripSupply_notOpen ho _)]
  rw [hsup] at hcut
  refine ⟨(congrArg Supply.tripReason hcut :), (congrArg Supply.state hcut :), hreason, hinflight, ?_⟩
  rw [hl, hlog, hq, hu]

/-! ## What a grant gives -/

/-- The grant of a SET step leaves a fixture with its result, and nothing else changed. -/
def Part.SetGives (f : FixtureIx) (i : InFlight) (e : StepEnd) (y : Fixture) (p : Part) : Prop :=
  p.grantSet f = p.putFx f (y.resulted i p.uptime e)

/-- As SetGives, though a free value may have been used. -/
def Part.SetMayGive (f : FixtureIx) (i : InFlight) (e : StepEnd) (y : Fixture) (p : Part) : Prop :=
  ∃ q, (q = p ∨ q = p.used) ∧ p.grantSet f = q.putFx f (y.resulted i q.uptime e)

/-- The grant of a SET step trips the supply once its record is stored. -/
def Part.SetTrips (f : FixtureIx) (i : InFlight) (e : StepEnd) (below500 : Bool) (p : Part) : Prop :=
  let t := p.grantSet f
  (t.fx f).supply.tripReason = .overcurrent ∧ (t.fx f).supply.state = (if below500 then .tripped else .discharge) ∧
    (t.fx f).run.haltReason = .supplyTrip ∧ (t.fx f).inflight = none ∧
    (t.fx f).log = (p.fx f).log ++ [(p.fx f).recordFor i.step i.startedAt p.uptime e]

/-! ## SUPPLY_LIMIT, by the state of the supply -/

/-- A supply with SUPPLY_LIMIT's record stored. -/
def Supply.limited (ma ms slew : Nat) (s : Supply) : Supply :=
  { s with limit := clampLimit ma, limitTime := clampLimitTime ms, slew := clampSlew slew }

/-- What SUPPLY_LIMIT's record ends its step with. -/
def limitNote (ma ms slew : Nat) : StepEnd :=
  (clampedIf (clampLimit ma != ma || clampLimitTime ms != ms || clampSlew slew != slew)).setEnd

section
variable {ma ms slew : Nat}

theorem Part.SetWaits.grant_supplyLimit (h : p.SetWaits f i r) (ht : parseRecord r = some (.supplyLimit ma ms slew)) :
    p.grantSet f = ((p.limitStored f i (limitNote ma ms slew) ((p.fx f).supply.limited ma ms slew)).afterLimits Part.runQueueBusy f
      (p.fx f).supply.limit).runQueueBusy f := by
  refine h.grant_limits ht ?_
  rw [Part.applyTarget, Part.supplyLimit, Part.modSupply_eq]
  rfl

theorem Part.SetWaits.limit_dead (h : p.SetWaits f i r) (ht : parseRecord r = some (.supplyLimit ma ms slew))
    (hs : (p.fx f).supply.state = .off ∨ (p.fx f).supply.state = .discharge ∨ (p.fx f).supply.state = .tripped) :
    p.SetGives f i (limitNote ma ms slew) { p.fx f with supply := (p.fx f).supply.limited ma ms slew } := by
  have hg := h.grant_supplyLimit ht
  obtain ⟨hLs, _⟩ := p.limitStored_fx f i (limitNote ma ms slew) ((p.fx f).supply.limited ma ms slew)
  rw [Part.afterLimits_dead Part.runQueueBusy (by rw [hLs]; exact hs)] at hg
  exact hg.trans (Part.limitStored_settles (v' := (p.fx f).supply) h.awaits).2.2.2.2

/-- In RAMP the soft-start limit moves under the current. -/
theorem Part.SetWaits.limit_ramp (h : p.SetWaits f i r) (ht : parseRecord r = some (.supplyLimit ma ms slew))
    (hs : (p.fx f).supply.state = .ramp) :
    let u := (p.fx f).supply
    let v := u.limited ma ms slew
    (u.atLimit = true → u.softStart < v.softStart →
      p.SetGives f i (limitNote ma ms slew) { p.fx f with supply := { v with atLimit := false } }) ∧
    ((u.atLimit = true ∧ v.softStart ≤ u.softStart ∨ u.atLimit = false ∧ u.softStart ≤ v.softStart) →
      p.SetGives f i (limitNote ma ms slew) { p.fx f with supply := v }) ∧
    (u.atLimit = false → v.softStart < u.softStart →
      p.SetMayGive f i (limitNote ma ms slew) { p.fx f with supply := { v with atLimit := p.free } }) := by
  intro u v
  have hg := h.grant_supplyLimit ht
  obtain ⟨hLs, _⟩ := p.limitStored_fx f i (limitNote ma ms slew) v
  have settles := fun v' => Part.limitStored_settles (e := limitNote ma ms slew) (v := v) (v' := v') h.awaits
  rw [Part.afterLimits_ramp Part.runQueueBusy (by rw [hLs]; exact hs), hLs] at hg
  refine ⟨fun ha hlt => ?_, fun hc => ?_, fun ha hlt => ?_⟩
  · exact (hg.trans (congrArg (Part.runQueueBusy f) (if_pos ⟨ha, hlt⟩))).trans (settles _).1
  · have hneg : ¬ (u.atLimit = true ∧ u.softStart < v.softStart) ∧ ¬ (u.atLimit = false ∧ v.softStart < u.softStart) := by
      rcases hc with ⟨ha, hle⟩ | ⟨ha, hle⟩
      · exact ⟨fun k => not_lt.mpr hle k.2, fun k => by rw [ha] at k; cases k.1⟩
      · exact ⟨fun k => (by rw [ha] at k; cases k.1), fun k => not_lt.mpr hle k.2⟩
    have hg' := hg.trans (congrArg (Part.runQueueBusy f) ((if_neg hneg.1).trans (if_neg hneg.2)))
    exact hg'.trans (settles v).2.2.2.2
  · have hneg : ¬ (u.atLimit = true ∧ u.softStart < v.softStart) := fun k => by rw [ha] at k; cases k.1
    have hg' := hg.trans (congrArg (Part.runQueueBusy f) ((if_neg hneg).trans (if_pos ⟨ha, hlt⟩)))
    exact ⟨p.used, .inr rfl, hg'.trans (settles _).2.1⟩

/-- In ON a lowered limit may be passed already, but not on the LOW range. -/
theorem Part.SetWaits.limit_on (h : p.SetWaits f i r) (ht : parseRecord r = some (.supplyLimit ma ms slew))
    (hs : (p.fx f).supply.state = .on) :
    let u := (p.fx f).supply
    let v := u.limited ma ms slew
    ((u.limit ≤ v.limit ∨ u.range = .low) → p.SetGives f i (limitNote ma ms slew) { p.fx f with supply := v }) ∧
    (v.limit < u.limit → u.range = .high →
      p.SetMayGive f i (limitNote ma ms slew) { p.fx f with supply := v } ∨
      p.SetMayGive f i (limitNote ma ms slew)
        { p.fx f with supply := { v with atLimit := true, state := .limit, since := p.clock } }) := by
  intro u v
  have hg := h.grant_supplyLimit ht
  obtain ⟨hLs, _⟩ := p.limitStored_fx f i (limitNote ma ms slew) v
  have settles := fun v' => Part.limitStored_settles (e := limitNote ma ms slew) (v := v) (v' := v') h.awaits
  rw [Part.afterLimits_on Part.runQueueBusy (by rw [hLs]; exact hs), hLs] at hg
  refine ⟨fun hc => ?_, fun hlt hr => ?_⟩
  · have hneg : ¬ (v.limit < u.limit ∧ u.range = .high) := fun k => by
      rcases hc with hc | hc
      · exact not_lt.mpr hc k.1
      · cases hc.symm.trans k.2
    exact (hg.trans (congrArg (Part.runQueueBusy f) (if_neg hneg))).trans (settles v).2.2.2.2
  · have hg' := hg.trans (congrArg (Part.runQueueBusy f) (if_pos ⟨hlt, hr⟩))
    cases hb : (p.limitStored f i (limitNote ma ms slew) v).free with
    | true =>
      rw [if_pos hb] at hg'
      exact .inr ⟨p.used, .inr rfl, hg'.trans (settles _).2.2.1⟩
    | false =>
      rw [if_neg (by rw [hb]; decide)] at hg'
      exact .inl ⟨p.used, .inr rfl, hg'.trans (settles v).2.2.2.1⟩

/-- In LIMIT a raised limit takes the supply back to ON, and a spent timer trips it. -/
theorem Part.SetWaits.limit_limit (h : p.SetWaits f i r) (ht : parseRecord r = some (.supplyLimit ma ms slew))
    (hs : (p.fx f).supply.state = .limit) :
    let u := (p.fx f).supply
    let v := u.limited ma ms slew
    let back : Supply := { v with atLimit := false, state := .on, since := p.clock }
    (v.limit ≤ u.limit → p.clock < u.since + v.limitTime * 1000 →
      p.SetGives f i (limitNote ma ms slew) { p.fx f with supply := v }) ∧
    (u.limit < v.limit → p.clock < u.since + v.limitTime * 1000 →
      p.SetGives f i (limitNote ma ms slew) { p.fx f with supply := back }) ∧
    (u.limit < v.limit → u.since + v.limitTime * 1000 ≤ p.clock →
      p.SetMayGive f i (limitNote ma ms slew) { p.fx f with supply := back } ∨ p.SetTrips f i (limitNote ma ms slew) u.below500) ∧
    (v.limit ≤ u.limit → u.since + v.limitTime * 1000 ≤ p.clock → p.SetTrips f i (limitNote ma ms slew) u.below500) := by
  intro u v back
  have hg := h.grant_supplyLimit ht
  obtain ⟨hLs, hLi, _⟩ := p.limitStored_fx f i (limitNote ma ms slew) v
  have settles := fun v' => Part.limitStored_settles (e := limitNote ma ms slew) (v := v) (v' := v') h.awaits
  have trips : ∀ q : Part, q.fx f = p.fx f → q.uptime = p.uptime →
      p.grantSet f = ((q.limitStored f i (limitNote ma ms slew) v).tripSupply f .overcurrent).runQueueBusy f →
      p.SetTrips f i (limitNote ma ms slew) u.below500 := by
    intro q hq hu hgq
    unfold Part.SetTrips
    rw [hgq]
    exact Part.limitStored_trips h.awaits v q hq hu
  rw [Part.afterLimits_limit Part.runQueueBusy (by rw [hLs]; exact hs) hLi, hLs] at hg
  refine ⟨fun hle hn => ?_, fun hlt hn => ?_, fun hlt hn => ?_, fun hle hn => ?_⟩
  · have hg' := hg.trans (congrArg (Part.runQueueBusy f) ((if_neg (not_lt.mpr hle)).trans (if_neg (not_le.mpr hn))))
    exact hg'.trans (settles v).2.2.2.2
  · have hg' := hg.trans (congrArg (Part.runQueueBusy f) ((if_pos hlt).trans (if_neg (not_le.mpr hn))))
    exact hg'.trans (settles _).1
  · have hg' := hg.trans (congrArg (Part.runQueueBusy f) ((if_pos hlt).trans (if_pos hn)))
    cases hb : (p.limitStored f i (limitNote ma ms slew) v).free with
    | true =>
      rw [if_pos hb] at hg'
      exact .inl ⟨p.used, .inr rfl, hg'.trans (settles _).2.1⟩
    | false =>
      rw [if_neg (by rw [hb]; decide)] at hg'
      exact .inr (trips p.used rfl rfl hg')
  · have hg' := hg.trans (congrArg (Part.runQueueBusy f) ((if_neg (not_lt.mpr hle)).trans (if_pos hn)))
    exact trips p rfl rfl hg'

end

end

theorem decide_lt_eq_not (a b : Nat) : decide (a < b) = !decide (b ≤ a) := by
  rw [← decide_not]
  exact decide_eq_decide.mpr not_le.symm

theorem bne_eq_not_decide (a b : Nat) : (a != b) = !decide (a = b) := by
  by_cases h : a = b <;> simp [h]

/-- A period of 0 µs is raised. -/
theorem zeroCount_eq_not (a b : Nat) : (decide (a = 0) || decide (b = 0)) = !(decide (1 ≤ a) && decide (1 ≤ b)) := by
  rw [Bool.not_and, ← decide_not, ← decide_not]
  congr 1 <;> exact decide_eq_decide.mpr (by omega)

/-- Settles O38, target by target: the record's own outcome, then what follows from it. -/
theorem setRecordsReachTheirTargets : Obligations.SetRecordsReachTheirTargets := by
  unfold Obligations.SetRecordsReachTheirTargets
  intro s f i r hp hpath hnext hactive hcont hqueue hin hbody hplain x now sets setsFree trips passed passedIf
  obtain ⟨P, hP⟩ : ∃ P : Part, P = { s.part with pathBusy := some (now + 5) } := ⟨_, rfl⟩
  have hPx : P.fx f = x := by rw [hP]; rfl
  have hPup : P.uptime = s.part.uptime := by rw [hP]; rfl
  have hPclock : P.clock = now := by rw [hP]
  have hPrack : P.rack = s.part.rack := by rw [hP]
  have hw : P.SetWaits f i r := ⟨by rw [hPx]; exact ⟨hin, hplain, hactive, hcont, hqueue⟩, hbody⟩
  have grant : exec .recordGrant s = .next (s.withPart (P.grantSet f)) := by
    refine State.event_next hp ?_
    rw [Part.tryGrant, hpath, hnext, hP]
    rfl
  have hsets : ∀ {e e' : StepEnd} {y : Fixture}, P.grantSet f = P.putFx f (y.resulted i P.uptime e') → e' = e → sets e y := by
    intro e e' y hg he
    rw [hg, hPup, he, hP] at grant
    exact grant
  have hfree : ∀ {e e' : StepEnd} {y : Fixture} {q : Part}, q = P ∨ q = P.used → P.grantSet f = q.putFx f (y.resulted i q.uptime e') →
      e' = e → setsFree e y := by
    intro e e' y q hq hg he
    rw [hg] at grant
    rcases hq with rfl | rfl
    · rw [hPup, he, hP] at grant
      exact ⟨_, grant⟩
    · rw [show P.used.uptime = s.part.uptime from hPup, he, hP] at grant
      exact ⟨_, grant⟩
  have hmay : ∀ {e e' : StepEnd} {y : Fixture}, P.SetMayGive f i e' y → e' = e → setsFree e y := by
    rintro e e' y ⟨q, hq, hg⟩ he
    exact hfree hq hg he
  have htrip : ∀ {e e' : StepEnd}, P.SetTrips f i e' x.supply.below500 → e' = e → trips e := by
    rintro e _ h rfl
    unfold Part.SetTrips at h
    rw [hPx, hPup] at h
    exact ⟨_, grant, h⟩
  have clamp : ∀ {b same : Bool}, b = !same → (clampedIf b).setEnd = passedIf same := clampedIf_setEnd
  refine ⟨fun ht => ?_, fun mv ht => ?_, fun mv ht => ?_, fun d ht => ?_, fun cfg ht => ?_, fun cfg ht => ?_, fun c ht => ?_,
    fun ht => ?_, fun ht => ?_, fun outs ins ht hc => ?_, fun mask levels ht hc => ?_, fun id ext len data ht => ⟨fun hn => ?_,
        fun hn => ?_⟩,
    fun mv ht => ?_, fun ma ms slew ht => ?_, fun ht => ?_, fun ht => ?_⟩
  · have := hsets (hw.grant_same ht rfl) rfl
    rwa [hPx] at this
  · have := hsets (hw.grant_outs ht rfl) (clamp (decide_lt_eq_not 10000 mv))
    rwa [hPx] at this
  · have := hsets (hw.grant_outs ht rfl) (clamp (decide_lt_eq_not 10000 mv))
    rwa [hPx] at this
  · have := hsets (hw.grant_outs ht rfl) (clamp (decide_lt_eq_not 64 d))
    rwa [hPx] at this
  · have := hsets (hw.grant_outs ht rfl) rfl
    rw [hPx, hPclock] at this
    exact this
  · have := hsets (hw.grant_outs ht rfl) rfl
    rw [hPx, hPclock] at this
    exact this
  · have := hsets (hw.grant_outs ht rfl) (clamp (zeroCount_eq_not c.high c.low))
    rw [hPx] at this
    exact this
  · have := hsets (hw.grant_outs ht rfl) rfl
    rw [hPx, hPclock] at this
    exact this
  · have := hsets (hw.grant_outs ht rfl) rfl
    rw [hPx, hPclock] at this
    exact this
  · have := hsets (hw.grant_lines ht rfl (by rw [hPx]; exact hc)) rfl
    rwa [hPx] at this
  · have := hsets (hw.grant_lines ht rfl (by rw [hPx]; exact hc)) rfl
    rwa [hPx] at this
  · have := hsets (hw.grant_port ht (if_pos (by rw [hPx]; exact hn))) rfl
    rwa [hPx] at this
  · have := hsets (hw.grant_same ht (if_neg (by rw [hPx]; exact not_lt.mpr hn))) rfl
    rwa [hPx] at this
  · intro target u note moved
    have hnote : (clampedIf (clampVolts mv != mv)).setEnd = note := clamp (bne_eq_not_decide (clampVolts mv) mv)
    refine ⟨fun hs => ?_, fun hs => ?_, fun hs hr ha => ⟨fun h0 => ?_, fun h0 hs' => ?_, fun h0 hlt hb => ?_⟩⟩
    · have hm := Part.moveSetpoint_certain (p := P) (f := f) (mv := target) (by
        rw [hPx]
        exact hs.imp id (Or.imp id And.left))
      rw [hPx] at hm
      have := hsets (hw.grant_volts ht hm rfl fun k => by
        have hramp : u.state = .ramp := k.1
        rcases hs with h | h | h
        · rw [h] at hramp; cases hramp
        · rw [h] at hramp; cases hramp
        · exact h.2 hramp) hnote
      rwa [hPx] at this
    · obtain ⟨q, b, hq, hm, hzero, hkept, hfalse, _⟩ := P.moveSetpoint_some f target
      rw [hPx] at hm hkept hfalse
      refine ⟨b, hzero, fun h0 hle hr hb => hkept h0 hle hr hb (fun k => ?_) (fun k => ?_), hfalse, ?_⟩
      · rcases hs with h | h | h <;> cases h.symm.trans k
      · rcases hs with h | h | h <;> cases h.symm.trans k
      · have := hfree hq (hw.grant_volts ht hm (by rcases hq with rfl | rfl <;> rfl) fun k => by
          have hramp : u.state = .ramp := k.1
          rcases hs with h | h | h <;> cases h.symm.trans hramp) hnote
        rwa [hPx] at this
    · have hm : P.moveSetpoint f target = P.withSupply f (x.supply.movedTo target true) := by
        rw [h0, ← hPx]
        exact Part.moveSetpoint_zero
      have := hsets (hw.grant_volts_on ht hm rfl hs rfl ha) hnote
      rw [hPx, hPclock, ← ha] at this
      exact this
    · have hm := Part.moveSetpoint_stays (p := P) (f := f) (mv := target) (by rw [hPx]; exact hr) h0 (by rw [hPx]; exact hs')
      rw [hPx] at hm
      have := hsets (hw.grant_volts ht hm rfl fun k => nomatch k.2) hnote
      rwa [hPx] at this
    · obtain ⟨q, b, hq, hm, _⟩ := P.moveSetpoint_some f target
      rw [hPx] at hm
      have hqx : q.fx f = P.fx f := by rcases hq with rfl | rfl <;> rfl
      have hqc : q.clock = now := by rcases hq with rfl | rfl <;> exact hPclock
      cases b with
      | false =>
        have := hfree hq (hw.grant_volts ht hm hqx fun k => nomatch k.2) hnote
        rw [hPx] at this
        exact .inl this
      | true =>
        have := hfree hq (hw.grant_volts_on ht hm hqx hs rfl ha) hnote
        rw [hPx, hqc, ← ha] at this
        exact .inr this
  · intro limit time rate u note stored soft limiting back
    have hnote : (clampedIf (clampLimit ma != ma || clampLimitTime ms != ms || clampSlew slew != slew)).setEnd = note :=
      clamp (by simp only [bne_eq_not_decide, Bool.not_and]; rfl)
    refine ⟨fun hs => ?_, fun hs => ?_, fun hs => ?_, fun hs => ?_⟩
    · have := hw.limit_dead ht (by rw [hPx]; exact hs)
      rw [hPx] at this
      exact hsets this hnote
    · obtain ⟨hup, hstays, hdown⟩ := hw.limit_ramp ht (by rw [hPx]; exact hs)
      rw [hPx] at hup hstays hdown
      refine ⟨fun ha h => hsets (hup ha h) hnote, fun ha h => hsets (hstays (.inl ⟨ha, h⟩)) hnote,
        fun ha h => hsets (hstays (.inr ⟨ha, h⟩)) hnote, fun ha h => ?_⟩
      have hgo := hmay (hdown ha h) hnote
      cases hb : P.free with
      | true => rw [hb] at hgo; exact .inr hgo
      | false => rw [hb, ← show u.atLimit = false from ha] at hgo; exact .inl hgo
    · obtain ⟨hstays, hlowered⟩ := hw.limit_on ht (by rw [hPx]; exact hs)
      rw [hPx, hPclock] at hlowered
      rw [hPx] at hstays
      exact ⟨fun h => hsets (hstays h) hnote, fun h hr => (hlowered h hr).imp (hmay · hnote) (hmay · hnote)⟩
    · obtain ⟨hstays, hback, hspent, htrips⟩ := hw.limit_limit ht (by rw [hPx]; exact hs)
      rw [hPx, hPclock] at hstays hback hspent htrips
      exact ⟨fun h hn => hsets (hstays h hn) hnote, fun h hn => hsets (hback h hn) hnote,
        fun h hn => (hspent h hn).imp (hmay · hnote) (htrip · hnote), fun h hn => htrip (htrips h hn) hnote⟩
  · intro u startable
    have hstart : startable ↔ (P.fx f).supply.startable := by rw [hPx]; rfl
    refine ⟨fun hs hr => ?_, fun hs hr h0 h => ?_, fun hs hr h ha => ?_, fun hs => ?_⟩
    · have := hsets (hw.grant_same ht (Part.supplyOn_rackLow (hstart.mp hs) (by rw [hPrack]; exact hr))) rfl
      rwa [hPx] at this
    · have hm := Part.supplyOn_starts (hstart.mp hs) (by rw [hPrack]; exact hr)
      rw [hPx, hPclock] at hm
      have hreg : ((decide (u.state = .discharge) && u.inRegulation) || decide (u.setpoint = 0)) = false := by
        rcases h with h | h <;> simp [h, h0]
      rw [hreg] at hm
      have := hsets (hw.grant_ramp_stays ht hm rfl fun k => nomatch k.2) rfl
      rwa [hPx] at this
    · have hm := Part.supplyOn_starts (hstart.mp hs) (by rw [hPrack]; exact hr)
      rw [hPx, hPclock] at hm
      have hreg : ((decide (u.state = .discharge) && u.inRegulation) || decide (u.setpoint = 0)) = true := by
        rcases h with h | h <;> simp [h]
      rw [hreg] at hm
      have := hsets (hw.grant_ramp_on ht hm rfl rfl rfl ha) rfl
      rw [hPx, hPclock, ← ha] at this
      exact this
    · have := hsets (hw.grant_same ht (Part.supplyOn_none fun k => hs (hstart.mpr k))) rfl
      rwa [hPx] at this
  · refine ⟨fun hs => ?_, fun hlive hr => ?_⟩
    · have hdead : (P.fx f).supply.live = false := by
        rw [hPx]
        rcases hs with h | h | h <;> rw [Supply.live, h] <;> rfl
      have := hsets (hw.grant_same ht (if_neg (by rw [hdead]; decide))) rfl
      rwa [hPx] at this
    · have hoff := Part.supplyOff_live (p := P) (f := f) (by rw [hPx]; exact hlive) (by rw [hPx]; exact hr) (i :=
        i) (by rw [hPx]; exact hin)
        hplain
      have := hsets (hw.grant (w := .cut) (y := { P.fx f with supply := (P.fx f).supply.cutWith .none P.clock }) ht hoff
        (hw.awaits.of_same rfl rfl rfl) (Part.follow_cut Part.runQueueBusy rfl) hw.awaits.queue hw.awaits.active) rfl
      rw [hPx, hPclock, Supply.cutWith_none, ← hr] at this
      exact this

end Sys2Proof.Machine
end

section
/-! PROOFS. The dimmer and the pulse generator (sections 5.3 and 5.4). -/

namespace Sys2Proof.Machine

open Sys2Proof

section
variable {p : Part} {f : FixtureIx}

/-- The dimmer pin is active in a running part while the duty lasts. -/
theorem Part.pwmPin_enabled (hp : p.powered = true) (he : (p.fx f).outs.pwm.enabled = true) :
    p.pwmPin f = if 64 ≤ (p.fx f).outs.pwm.duty ∨ p.clock - (p.fx f).outs.pwm.periodStart <
        (p.fx f).outs.pwm.duty * (p.fx f).outs.pwm.cfg.tickUs then !(p.fx f).outs.pwm.cfg.activeLow
      else (p.fx f).outs.pwm.cfg.activeLow := by
  simp [Part.pwmPin, hp, he]

theorem Part.pwmPin_disabled (hp : p.powered = true) (he : (p.fx f).outs.pwm.enabled = false) :
    p.pwmPin f = (p.fx f).outs.pwm.cfg.activeLow := by
  simp [Part.pwmPin, hp, he]

theorem Part.periodStarts_disabled (he : (p.fx f).outs.pwm.enabled = false) : p.periodStarts f = p := by
  have h : (p.fx f).outs.periodAt = none := by rw [Outputs.periodAt, he]; rfl
  rw [Part.periodStarts, h]

/-- A period start takes up what is pending. -/
theorem Part.periodStarts_enabled (he : (p.fx f).outs.pwm.enabled = true) :
    p.periodStarts f = (p.advanceTo (p.fx f).outs.pwm.nextStart).modFx f fun x =>
      { x with outs := { x.outs with pwm := (p.fx f).outs.pwm.takeUp } } := by
  have h : (p.fx f).outs.periodAt = some (p.fx f).outs.pwm.nextStart := by rw [Outputs.periodAt, if_pos he]
  rw [Part.periodStarts, h]
  refine Part.modFx_congr ?_
  rw [Part.advanceTo_fx_outs]

theorem Part.phaseEnds_stopped (h : (p.fx f).outs.pulse.phase = .stopped) : p.phaseEnds f = p := by
  have hn : (p.fx f).outs.phaseAt = none := if_pos h
  rw [Part.phaseEnds, hn]

theorem Part.phaseEnds_running (h : (p.fx f).outs.pulse.phase ≠ .stopped) :
    p.phaseEnds f = (p.advanceTo (p.fx f).outs.pulse.boundary).modFx f fun x =>
      { x with outs := { x.outs with pulse := (p.fx f).outs.pulse.step } } := by
  have hn : (p.fx f).outs.phaseAt = some (p.fx f).outs.pulse.boundary := if_neg h
  rw [Part.phaseEnds, hn]
  refine Part.modFx_congr ?_
  rw [Part.advanceTo_fx_outs]

end

/-- The end of a high phase counts a pulse, and the last one stops the generator. -/
theorem Pulse.step_high {g : Pulse} (h : g.phase = .high) :
    g.step = { cur := g.pending.getD g.cur, pending := none, done := min 65535 (g.done + 1), phaseStart := g.phaseStart + g.cur.high
               phase := if (g.pending.getD g.cur).count ≠ 0 ∧ (g.pending.getD g.cur).count ≤ min 65535 (g.done + 1) then .stopped
                 else .low } := by
  have hb : g.boundary = g.phaseStart + g.cur.high := by rw [Pulse.boundary, if_pos h]
  unfold Pulse.step
  simp only [h, hb, sat16]
  split <;> rfl

theorem Pulse.step_low {g : Pulse} (h : g.phase = .low) :
    g.step = { g with cur := g.pending.getD g.cur, pending := none, phase := .high, phaseStart := g.phaseStart + g.cur.low } := by
  have hb : g.boundary = g.phaseStart + g.cur.low := by rw [Pulse.boundary, if_neg (by rw [h]; decide)]
  unfold Pulse.step
  simp only [h, hb]

/-- Settles O40. -/
theorem dimmerAndPulsesKeepTheirTimes : Obligations.DimmerAndPulsesKeepTheirTimes := by
  unfold Obligations.DimmerAndPulsesKeepTheirTimes
  intro s f hp o w g tick cur done
  refine ⟨fun he => ⟨State.event_next (q := s.part) hp (Part.periodStarts_disabled he), Part.pwmPin_disabled hp he⟩,
    fun he => ⟨fun h => ?_, fun h => ?_, fun h h' => ?_, State.event_next hp (Part.periodStarts_enabled he)⟩, ?_,
    fun h => State.event_next (q := s.part) hp (Part.phaseEnds_stopped h), fun h => ?_, fun h => ?_⟩
  · exact (Part.pwmPin_enabled hp he).trans (if_pos (.inr h))
  · exact (Part.pwmPin_enabled hp he).trans (if_pos (.inl h))
  · exact (Part.pwmPin_enabled hp he).trans (if_neg fun k => k.elim (not_le.mpr h) (not_lt.mpr h'))
  · rw [Part.pulsePin, hp, Bool.true_and]
  · have hne : g.phase ≠ .stopped := by rw [h]; decide
    have hb : g.boundary = g.phaseStart + g.cur.high := by rw [Pulse.boundary, if_pos h]
    refine State.event_next hp ((Part.phaseEnds_running hne).trans ?_)
    rw [show (s.part.fx f).outs.pulse.boundary = _ from hb, show (s.part.fx f).outs.pulse.step = _ from Pulse.step_high h]
  · have hne : g.phase ≠ .stopped := by rw [h]; decide
    have hb : g.boundary = g.phaseStart + g.cur.low := by rw [Pulse.boundary, if_neg (by rw [h]; decide)]
    refine State.event_next hp ((Part.phaseEnds_running hne).trans ?_)
    rw [show (s.part.fx f).outs.pulse.boundary = _ from hb, show (s.part.fx f).outs.pulse.step = _ from Pulse.step_low h]

end Sys2Proof.Machine
end

section
/-! PROOFS. Channels: the grant of a record, and the end of a dwell (sections 4.2 to 4.4). -/

namespace Sys2Proof.Machine

open Sys2Proof

/-- A notice of a channel's bank. -/
def bankEvent (c : ChannelIx) (d : ChannelDef) (k : ChannelEvent) (bk : Bank) (passes : Nat) : Notice :=
  .channelEvent c d.fixture k (some bk) passes .none

section
variable {p q : Part} {c : ChannelIx} {d : ChannelDef} {bk : Bank}

theorem Part.postBank (hd : (p.ch c).defn = some d) {k : ChannelEvent} (hk : k ≠ .fault) (bk : Bank) :
    p.postChannel c k (some bk) = p.post (bankEvent c d k bk (p.ch c).passes) := by
  rw [Part.postChannel_eq hd, if_neg hk]
  rfl

theorem Part.modCh_modCh (p : Part) (c : ChannelIx) (g h : Channel → Channel) :
    (p.modCh c g).modCh c h = p.modCh c fun ch => h (g ch) := by
  simp [Part.modCh, Part.ch]

theorem Part.post_modCh (p : Part) (n : Notice) (c : ChannelIx) (g : Channel → Channel) :
    (p.post n).modCh c g = (p.modCh c g).post n := rfl

/-! ## The grant -/

/-- A report that no step of the channel's fixture waits for. -/
theorem Part.channelReport_unheard (rq : Examine) (hd : (p.ch c).defn = some d) (hi : (p.fx d.fixture).inflight = none) :
    p.channelReport rq c = p := by
  rw [Part.channelReport, hd]
  exact if_neg (by rw [Fixture.waitingFor_none hi]; nofun)

/-- A record's dwell and position, and HALF in the middle of the bank. -/
def Part.dwelling (c : ChannelIx) (d : ChannelDef) (bk : Bank) (units : Nat) (p : Part) : Part :=
  let q := p.modCh c fun ch =>
    { ch with position := ch.position + 1, remaining := ch.remaining - 1, due := false, dwellEnd := p.clock + d.dwellUs units }
  if d.half = true ∧ 1 ≤ d.count bk / 2 ∧ (p.ch c).remaining - 1 = d.count bk / 2 then
    q.post (bankEvent c d .half bk (p.ch c).passes)
  else q

theorem Part.channelApplied_dwells (hd : (p.ch c).defn = some d) (hb : (p.ch c).bank = some bk) {units : Nat} (hu : units ≠ 0) :
    p.channelApplied c d units = p.dwelling c d bk units := by
  unfold Part.channelApplied Part.dwelling
  simp only [hb, if_neg hu, Option.getD_some]
  have hch := p.modCh_ch c fun ch =>
    { ch with position := ch.position + 1, remaining := ch.remaining - 1, due := false, dwellEnd := p.clock + d.dwellUs units }
  rw [hch]
  refine if_congr Iff.rfl ?_ rfl
  rw [Part.postBank (d := d) (by rw [hch]; exact hd) (by decide), hch]

theorem Part.dwelling_fx (p : Part) (c : ChannelIx) (d : ChannelDef) (bk : Bank) (units : Nat) (f : FixtureIx) :
    (p.dwelling c d bk units).fx f = p.fx f := by
  unfold Part.dwelling
  dsimp only
  split <;> rfl

theorem Part.dwelling_defn (p : Part) (c : ChannelIx) (d : ChannelDef) (bk : Bank) (units : Nat) :
    ((p.dwelling c d bk units).ch c).defn = (p.ch c).defn := by
  unfold Part.dwelling
  dsimp only
  split
  · rw [Part.post_ch, Part.modCh_ch]
  · rw [Part.modCh_ch]

/-- A channel whose record could not be applied. -/
theorem Part.channelFaulted_eq (hd : (p.ch c).defn = some d) (hb : (p.ch c).bank = some bk) (r : FaultReason) :
    p.channelFaulted c r = (p.modCh c fun ch => { ch with state := .faulted, fault := r, due := false, bank := none }).post
      (.channelEvent c d.fixture .fault (some bk) (p.ch c).passes r) := by
  have hch := p.modCh_ch c fun ch => { ch with state := .faulted, fault := r, due := false, bank := none }
  rw [Part.channelFaulted, Part.postChannel_eq (d := d) (by rw [hch]; exact hd), hch, hb]
  rfl

/-- The channel's record is granted while its fixture has no step in flight, and nothing follows from it. -/
theorem Part.grantChannel_applied (hd : (p.ch c).defn = some d) (hb : (p.ch c).bank = some bk)
    (hi : (p.fx d.fixture).inflight = none) {t : Target} {out : Applied}
    (ht : parseRecord (Pattern.slot p.pattern (p.ch c).position) = some t)
    (ha : p.applyTarget d.fixture t = (q, out, .nothing)) (hc : ∀ e, q.ch e = p.ch e)
    (hq : (q.fx d.fixture).inflight = none) :
    (out.fault = none → recordDwell (Pattern.slot p.pattern (p.ch c).position) ≠ 0 →
      p.grantChannel c = q.dwelling c d bk (recordDwell (Pattern.slot p.pattern (p.ch c).position))) ∧
    (∀ r, out.fault = some r → p.grantChannel c = q.channelFaulted c r) := by
  have hrec : p.applyRecord d.fixture (Pattern.slot p.pattern (p.ch c).position) = (q, out, .nothing) := by
    rw [Part.applyRecord, ht]; exact ha
  have hnone : (p.fx d.fixture).inflight.isSome = false := by rw [hi]; rfl
  have hqd : (q.ch c).defn = some d := by rw [hc]; exact hd
  have hqb : (q.ch c).bank = some bk := by rw [hc]; exact hb
  refine ⟨fun ho hu => ?_, fun r ho => ?_⟩
  · rw [Part.grantChannel, hd]
    simp only [hrec, ho, hnone, Part.channelApplied_dwells hqd hqb hu]
    have hrep := Part.channelReport_unheard (p := q.dwelling c d bk (recordDwell (Pattern.slot p.pattern (p.ch c).position))) (c :=
        c) (d := d)
      Part.notYet (by rw [Part.dwelling_defn]; exact hqd) (by rw [Part.dwelling_fx]; exact hq)
    exact hrep
  · rw [Part.grantChannel, hd]
    simp only [hrec, ho, hnone]
    have hf := Part.channelFaulted_eq hqd hqb r
    have hrep := Part.channelReport_unheard (p := q.channelFaulted c r) (c := c) (d := d) Part.notYet
      (by rw [hf, Part.post_ch, Part.modCh_ch]; exact hqd) (by rw [hf]; exact hq)
    exact hrep

/-! ## The end of a dwell -/

/-- The passes of a channel at the end of a bank. -/
def Channel.passed (d : ChannelDef) (ch : Channel) : Nat := if d.mode = .once then 1 else min 65535 (ch.passes + 1)

/-- END of a bank, if the channel reports it. -/
def Part.bankTold (c : ChannelIx) (d : ChannelDef) (bk : Bank) (n : Nat) (p : Part) : Part :=
  if d.endNotice then p.post (bankEvent c d .endOfBank bk n) else p

theorem Part.bankTold_modCh (n : Nat) (g : Channel → Channel) :
    (p.bankTold c d bk n).modCh c g = (p.modCh c g).bankTold c d bk n := by
  unfold Part.bankTold
  split <;> rfl

theorem Part.bankTold_ch (n : Nat) (e : ChannelIx) : (p.bankTold c d bk n).ch e = p.ch e := by
  unfold Part.bankTold
  split <;> rfl

/-- The passes counted, and the end of the bank reported. -/
def Part.bankCounted (c : ChannelIx) (d : ChannelDef) (bk : Bank) (p : Part) : Part :=
  (p.modCh c fun ch => { ch with passes := (p.ch c).passed d }).bankTold c d bk ((p.ch c).passed d)

theorem Part.bankCounted_ch (p : Part) (c : ChannelIx) (d : ChannelDef) (bk : Bank) :
    (p.bankCounted c d bk).ch c = { p.ch c with passes := (p.ch c).passed d } := by
  rw [Part.bankCounted, Part.bankTold_ch, Part.modCh_ch]

theorem Part.bankCounted_modCh (p : Part) (c : ChannelIx) (d : ChannelDef) (bk : Bank) (g : Channel → Channel) :
    (p.bankCounted c d bk).modCh c g =
      (p.modCh c fun ch => g { ch with passes := (p.ch c).passed d }).bankTold c d bk ((p.ch c).passed d) := by
  rw [Part.bankCounted, Part.bankTold_modCh, Part.modCh_modCh]

/-- What a channel does at the end of a bank, the passes counted and the end told. -/
def Part.bankNext (c : ChannelIx) (d : ChannelDef) (bk : Bank) (q : Part) : Part :=
  match d.mode with
  | .once => q.channelDone c bk
  | .circular =>
    if d.repeats ≠ 0 ∧ d.repeats ≤ (q.ch c).passes then q.channelDone c bk else q.modCh c fun ch => ch.enter d bk
  | .pingpong =>
    if (q.ch c).ready bk.other then
      (q.modCh c fun ch => (ch.enter d bk.other).setReady bk.other false).postChannel c .bankFree (some bk)
    else (q.modCh c fun ch => { ch with state := .starved, due := false }).postChannel c .starved (some bk.other)

/-- The end of a bank, once the passes are counted and the end is told. -/
theorem Part.bankEnd_eq (hd : (p.ch c).defn = some d) (hb : (p.ch c).bank = some bk) :
    (d.mode = .once → p.bankEnd c = (p.bankCounted c d bk).channelDone c bk) ∧
    (d.mode = .circular → p.bankEnd c =
      if d.repeats ≠ 0 ∧ d.repeats ≤ (p.ch c).passed d then (p.bankCounted c d bk).channelDone c bk
      else (p.bankCounted c d bk).modCh c fun ch => ch.enter d bk) ∧
    (d.mode = .pingpong → p.bankEnd c =
      if (p.ch c).ready bk.other then
        ((p.bankCounted c d bk).modCh c fun ch => (ch.enter d bk.other).setReady bk.other false).postChannel c .bankFree (some bk)
      else ((p.bankCounted c d bk).modCh c fun ch => { ch with state := .starved, due := false }).postChannel c .starved
        (some bk.other)) := by
  have hch := p.bankCounted_ch c d bk
  have counted : (let q := p.modCh c fun ch => { ch with passes := if d.mode = .once then 1 else sat16 (ch.passes + 1) }
      if d.endNotice then q.postChannel c .endOfBank (some bk) else q) = p.bankCounted c d bk := by
    have hmod : (p.modCh c fun ch => { ch with passes := if d.mode = .once then 1 else sat16 (ch.passes + 1) }) =
        p.modCh c fun ch => { ch with passes := (p.ch c).passed d } := Part.modCh_congr rfl
    rw [hmod, Part.bankCounted, Part.bankTold]
    refine if_congr Iff.rfl ?_ rfl
    rw [Part.postBank (d := d) (by rw [Part.modCh_ch]; exact hd) (by decide), Part.modCh_ch]
  have hend : p.bankEnd c = (p.bankCounted c d bk).bankNext c d bk := by
    rw [Part.bankEnd, hd, hb, ← counted]
    rfl
  rw [Part.bankNext, hch] at hend
  refine ⟨fun hm => ?_, fun hm => ?_, fun hm => ?_⟩
  all_goals rw [hm] at hend; rw [hend]
  cases bk <;> rfl

/-- A change of the channel after the count, and its report. -/
theorem Part.bankCounted_reported (hd : (p.ch c).defn = some d) {g : Channel → Channel} (hg : ∀ ch, (g ch).defn = ch.defn)
    (hp : ∀ ch, (g ch).passes = ch.passes) {k : ChannelEvent} (hk : k ≠ .fault) (of : Bank) :
    ((p.bankCounted c d bk).modCh c g).postChannel c k (some of) =
      ((p.modCh c fun ch => g { ch with passes := (p.ch c).passed d }).bankTold c d bk ((p.ch c).passed d)).post
        (bankEvent c d k of ((p.ch c).passed d)) := by
  have hch : ((p.bankCounted c d bk).modCh c g).ch c = g { p.ch c with passes := (p.ch c).passed d } := by
    rw [Part.modCh_ch, Part.bankCounted_ch]
  rw [Part.postBank (d := d) (by rw [hch, hg]; exact hd) hk, hch, hp, Part.bankCounted_modCh]

/-- A dwell that expires while the record path is busy and no step waits for the channel. -/
theorem Part.dwellOver_quiet (hs : (p.ch c).state = .playing) (hdue : (p.ch c).due = false) (hbusy : p.pathBusy ≠ none)
    (hq : (p.advanceTo (p.ch c).dwellEnd).dwellDone c = q) (hqd : (q.ch c).defn = some d)
    (hqi : (q.fx d.fixture).inflight = none) (hqb : q.pathBusy = p.pathBusy) : p.dwellOver c = q := by
  have hat : (p.ch c).dwellAt = some (p.ch c).dwellEnd := by rw [Channel.dwellAt, hs, hdue]; rfl
  rw [Part.dwellOver, hat]
  show (((p.advanceTo (p.ch c).dwellEnd).dwellDone c).channelReport Part.runQueue c).tryGrant = q
  rw [hq, Part.channelReport_unheard Part.runQueue hqd hqi]
  exact Part.tryGrant_busy (Option.isSome_iff_ne_none.mpr (by rw [hqb]; exact hbusy))

theorem Part.bankTold_rest (p : Part) (c : ChannelIx) (d : ChannelDef) (bk : Bank) (n : Nat) :
    (p.bankTold c d bk n).fixtures = p.fixtures ∧ (p.bankTold c d bk n).pathBusy = p.pathBusy := by
  unfold Part.bankTold
  split <;> exact ⟨rfl, rfl⟩

end

/-- Settles O39: the grant, the due channel, and the end of a dwell by mode. -/
theorem channelsPlayTheirBanks : Obligations.ChannelsPlayTheirBanks := by
  unfold Obligations.ChannelsPlayTheirBanks
  intro s c d bk hp hd hs hb hi ch start count other otherReady event
  refine ⟨fun hpath hnext => ?_, fun hdue => ?_, fun hdue hbusy => ?_⟩
  · intro r dwell began
    obtain ⟨P, hP⟩ : ∃ P : Part, P = { s.part with pathBusy := some (s.part.clock + 5) } := ⟨_, rfl⟩
    have grant : ∀ {q}, P.grantChannel c = q → exec .recordGrant s = .next (s.withPart q) := by
      intro q hq
      refine State.event_next hp (Eq.trans ?_ hq)
      rw [Part.tryGrant, hpath, hnext, hP]
      rfl
    have hPd : (P.ch c).defn = some d := by rw [hP]; exact hd
    have hPb : (P.ch c).bank = some bk := by rw [hP]; exact hb
    have hPi : (P.fx d.fixture).inflight = none := by rw [hP]; exact hi
    have hPr : Pattern.slot P.pattern (P.ch c).position = r := by rw [hP]; rfl
    have applied : ∀ {t out q}, parseRecord r = some t → P.applyTarget d.fixture t = (q, out, .nothing) → _ → _ → _ :=
      fun {t out q} ht ha hc hq => Part.grantChannel_applied (q := q) hPd hPb hPi (t := t) (out := out) (by rw [hPr]; exact ht) ha hc hq
    refine ⟨fun ht hu => ?_, fun mv ht hu => ?_, fun id ext len data ht hfull => ?_, fun ht hoff hlow => ?_⟩
    · have hg := (applied (q := P) ht rfl (fun _ => rfl) hPi).1 rfl (by rw [hPr]; exact hu)
      refine grant (hg.trans ?_)
      rw [hPr, hP]
      cases bk <;> rfl
    · have hx : ((P.modOuts d.fixture fun o => { o with aout0 := min 10000 mv }).fx d.fixture).inflight = none := by
        rw [Part.modOuts, Part.modFx_fx]; exact hPi
      have hnofault : (clampedIf (decide (10000 < mv))).fault = none := by cases decide (10000 < mv) <;> rfl
      have hg := (applied (q := P.modOuts d.fixture fun o => { o with aout0 := min 10000 mv }) ht rfl (fun _ => rfl) hx).1 hnofault
        (by rw [hPr]; exact hu)
      refine grant (hg.trans ?_)
      rw [hPr, hP]
      cases bk <;> rfl
    · have hfull' : ¬ (P.fx d.fixture).port.queue.length < 16 := by rw [hP]; exact not_lt.mpr hfull
      have hg := (applied (q := P) (out := .txFull) ht (if_neg hfull') (fun _ => rfl) hPi).2 .txFull rfl
      rw [Part.channelFaulted_eq hPd hPb] at hg
      refine grant (hg.trans ?_)
      rw [hP]
      rfl
    · have hstart : (P.fx d.fixture).supply.startable := by rw [hP]; exact .inl hoff
      have hg := (applied (q := P) (out := .rackLow) ht (Part.supplyOn_rackLow hstart (by rw [hP]; exact hlow)) (fun _ => rfl) hPi).2
        .rackLow rfl
      rw [Part.channelFaulted_eq hPd hPb] at hg
      refine grant (hg.trans ?_)
      rw [hP]
      rfl
  · have hat : ch.dwellAt = none := by rw [Channel.dwellAt, show ch.state = .playing from hs, hdue]; rfl
    have hq : s.part.dwellOver c = s.part := by rw [Part.dwellOver, hat]
    exact State.event_next (q := s.part) hp hq
  · intro p ends passes told finished entered
    have hch : p.ch c = ch := Part.advanceTo_ch _ _ _
    have hpd : (p.ch c).defn = some d := by rw [hch]; exact hd
    have hpb : (p.ch c).bank = some bk := by rw [hch]; exact hb
    have hpass : (p.ch c).passed d = passes := by rw [hch]; rfl
    have hpi : (p.fx d.fixture).inflight = none := (Part.advanceTo_fx_inflight _ _ _).trans hi
    have hpp : p.pathBusy = s.part.pathBusy := Part.advanceTo_pathBusy _ _
    have expires : ∀ {q : Part}, p.dwellDone c = q → (q.ch c).defn = some d → (q.fx d.fixture).inflight = none →
        q.pathBusy = p.pathBusy → ends q := fun hq h1 h2 h3 =>
      State.event_next hp (Part.dwellOver_quiet hs hdue hbusy hq h1 h2 (h3.trans hpp))
    have atEnd : ch.remaining = 0 → p.dwellDone c = p.bankEnd c := fun h => if_neg (by rw [hch, h]; decide)
    obtain ⟨honce, hcircular, hpingpong⟩ := Part.bankEnd_eq hpd hpb
    have reported : ∀ {g : Channel → Channel} {k : ChannelEvent} {of : Bank}, ch.remaining = 0 → (∀ ch, (g ch).defn = ch.defn) →
        (∀ ch, (g ch).passes = ch.passes) → k ≠ .fault →
        p.bankEnd c = ((p.bankCounted c d bk).modCh c g).postChannel c k (some of) →
        ends (((p.modCh c fun ch => g { ch with passes := passes }).bankTold c d bk passes).post (bankEvent c d k of passes)) := by
      intro g k of h0 hg hgp hk he
      rw [Part.bankCounted_reported hpd hg hgp hk, hpass] at he
      refine expires ((atEnd h0).trans he) ?_ ?_ ?_
      · rw [Part.post_ch, Part.bankTold_ch, Part.modCh_ch, hg]; exact hpd
      · rw [Part.post_fx, Part.fx_congr (Part.bankTold_rest _ _ _ _ _).1]; exact hpi
      · exact (Part.bankTold_rest (p.modCh c fun ch => g { ch with passes := passes }) c d bk passes).2
    refine ⟨fun h => ?_, fun h hm => ?_, fun h hm h1 h2 => ?_, fun h hm h1 => ?_, fun h hm hr => ?_, fun h hm hr => ?_⟩
    · refine expires (if_pos (by rw [hch]; exact h)) ?_ hpi rfl
      rw [Part.modCh_ch]; exact hpd
    · exact reported (g := fun ch => { ch with state := .done, due := false, bank := none }) (k := .done) (of := bk) h (fun _ => rfl)
        (fun _ => rfl) (by decide) (honce hm)
    · exact reported (g := fun ch => { ch with state := .done, due := false, bank := none }) (k := .done) (of := bk) h (fun _ => rfl)
        (fun _ => rfl) (by decide) ((hcircular hm).trans (if_pos ⟨h1, by rw [hpass]; exact h2⟩))
    · have he := (hcircular hm).trans (if_neg fun k => by
        rw [hpass] at k
        rcases h1 with h1 | h1
        · exact k.1 h1
        · exact absurd k.2 (not_le.mpr h1))
      rw [Part.bankCounted_modCh, hpass] at he
      have hgoal : told (entered bk p) =
          (p.modCh c fun ch => ({ ch with passes := passes } : Channel).enter d bk).bankTold c d bk passes := by
        cases bk <;> rfl
      rw [hgoal]
      refine expires ((atEnd h).trans he) ?_ ?_ (Part.bankTold_rest _ _ _ _ _).2
      · rw [Part.bankTold_ch, Part.modCh_ch]; exact hpd
      · rw [Part.fx_congr (Part.bankTold_rest _ _ _ _ _).1]; exact hpi
    · have hready : (p.ch c).ready bk.other = true := by rw [hch, ← hr]; cases bk <;> rfl
      have := reported (g := fun ch => (ch.enter d bk.other).setReady bk.other false) (k := .bankFree) (of := bk) h
        (fun ch => by cases bk <;> rfl) (fun ch => by cases bk <;> rfl) (by decide) ((hpingpong hm).trans (if_pos hready))
      have hgoal : ∀ g, (entered other p).modCh c g = p.modCh c fun ch => g ({ ch with
          passes := passes, state := .playing, due := true, bank := some other, position := start other
          remaining := count other } : Channel) := fun g => Part.modCh_modCh p c _ g
      rw [hgoal]
      cases bk <;> exact this
    · have hready : (p.ch c).ready bk.other = false := by rw [hch, ← hr]; cases bk <;> rfl
      have := reported (g := fun ch => { ch with state := .starved, due := false }) (k := .starved) (of := bk.other) h
        (fun _ => rfl) (fun _ => rfl) (by decide) ((hpingpong hm).trans (if_neg (by rw [hready]; decide)))
      cases bk <;> exact this

end Sys2Proof.Machine
end

section
/-! PROOFS. Discrete lines and the capture unit (sections 2.5, 2.6, 5.5 and 5.6). -/

namespace Sys2Proof.Machine

open Sys2Proof

theorem withBit_getLsbD (w : BitVec 8) (l k : LineIx) (v : Bool) :
    (withBit w l v).getLsbD k.val = if k = l then v else w.getLsbD k.val := by
  have hk := k.isLt
  have hl := l.isLt
  have hbit : (1#8 <<< l.val).getLsbD k.val = decide (k = l) := by
    rw [BitVec.getLsbD_shiftLeft, BitVec.getLsbD_one]
    simp only [Fin.ext_iff]
    by_cases h : k.val = l.val
    · simp [h, hl]
    · simp [h]; omega
  unfold withBit
  cases v
  · simp only [Bool.false_eq_true, if_false, BitVec.getLsbD_and, BitVec.getLsbD_not, hbit, decide_eq_true hk, Bool.true_and]
    by_cases h : k = l <;> simp [h]
  · simp only [if_true, BitVec.getLsbD_or, hbit]
    by_cases h : k = l <;> simp [h]

section
variable {p : Part} {f : FixtureIx} {i : InFlight} {before : Outputs}

theorem lostInput_same {a b : Outputs} (h : b.inEnable = a.inEnable) (l : LineIx) : lostInput a b l = false := by
  rw [lostInput, h, Bool.and_not_self]

/-- A fixture with its line pins set. -/
def Part.withPins (f : FixtureIx) (pins : BitVec 8) (p : Part) : Part := p.modFx f fun x => { x with outs := { x.outs with pins := pins } }

theorem Part.withPins_fx (p : Part) (f : FixtureIx) (pins : BitVec 8) :
    (p.withPins f pins).fx f = { p.fx f with outs := { (p.fx f).outs with pins := pins } } := Part.modFx_fx p f _

theorem Part.lineLevel_eq (p : Part) (f : FixtureIx) (l : LineIx) (v : Bool) :
    p.lineLevel f l v =
      if p.powered then (p.withPins f (withBit (p.fx f).outs.pins l v)).lineReaction Part.runQueue f (p.fx f).outs
      else p.withPins f (withBit (p.fx f).outs.pins l v) := by
  have h : (p.modOuts f fun o => { o with pins := withBit o.pins l v }) = p.withPins f (withBit (p.fx f).outs.pins l v) :=
    Part.modFx_congr rfl
  rw [Part.lineLevel, h]
  rfl

/-- A WAIT_FOR LINE hears its own line, as long as its input stays enabled. -/
theorem Part.lineReaction_waitFor (rq : Examine) {l : LineIx} {level : Bool} (hw : (p.fx f).waitingFor = some (.line l level))
    (hin : (p.fx f).outs.inEnable = before.inEnable) :
    p.lineReaction rq f before =
      if before.reads l ≠ (p.fx f).outs.reads l ∧ (p.fx f).outs.reads l = level then p.endStep rq f .passed else p := by
  unfold Part.lineReaction
  simp only [hw, lostInput_same hin]
  rfl

/-- With no WAIT_FOR the capture unit hears the rising edges of its line. -/
theorem Part.lineReaction_capture (rq : Examine) (hw : (p.fx f).waitingFor = none)
    (hin : (p.fx f).outs.inEnable = before.inEnable) :
    p.lineReaction rq f before =
      if (p.fx f).capture.state ≠ .idle ∧ before.reads (p.fx f).capture.line = false ∧
        (p.fx f).outs.reads (p.fx f).capture.line = true then p.risingEdge rq f else p := by
  unfold Part.lineReaction
  simp only [hw, lostInput_same hin]
  by_cases hc : (p.fx f).capture.state = .idle
  · simp [hc]
  · simp [hc]

theorem Part.risingEdge_armed (rq : Examine) (h : (p.fx f).capture.state = .armed) :
    p.risingEdge rq f =
      p.modFx f fun x => { x with capture := { (p.fx f).capture with state := .counting, periods := 0, total := 0, high := 0 } } := by
  simp only [Part.risingEdge, h]

/-- A counting unit with one period more. -/
def Part.periodCounted (f : FixtureIx) (p : Part) : Part :=
  p.modFx f fun x => { x with capture := { (p.fx f).capture with periods := (p.fx f).capture.periods + 1 } }

theorem Part.periodCounted_fx (p : Part) (f : FixtureIx) :
    (p.periodCounted f).fx f = { p.fx f with capture := { (p.fx f).capture with periods := (p.fx f).capture.periods + 1 } } :=
  Part.modFx_fx p f _

/-- The window of a TIMING measurement is full. -/
def Part.windowFull (rq : Examine) (f : FixtureIx) (u : Capture) (p : Part) : Part :=
  match (p.fx f).inflight with
  | some i =>
    match i.progress with
    | .timing pr =>
      match pr.body with
      | .timing _ q _ => p.endStep rq f (i.measured pr.unit (timingValue q u.window u.total u.high))
      | _ => p
    | _ => p
  | none => p

theorem Part.risingEdge_counting (rq : Examine) (h : (p.fx f).capture.state = .counting) :
    p.risingEdge rq f =
      if 16000000 < (p.fx f).capture.total then (p.periodCounted f).endStep rq f (.incomplete .noEdges)
      else if (p.fx f).capture.periods + 1 = (p.fx f).capture.window then (p.periodCounted f).windowFull rq f (p.fx f).capture
      else p.periodCounted f := by
  unfold Part.risingEdge
  dsimp only
  split
  next k => cases h.symm.trans k
  next k => cases h.symm.trans k
  next => rfl

theorem Part.risingEdge_counts (rq : Examine) (h : (p.fx f).capture.state = .counting) (ht : (p.fx f).capture.total ≤ 16000000)
    (hn : (p.fx f).capture.periods + 1 ≠ (p.fx f).capture.window) : p.risingEdge rq f = p.periodCounted f := by
  refine (Part.risingEdge_counting rq h).trans ?_
  rw [if_neg (not_lt.mpr ht), if_neg hn]

theorem Part.risingEdge_ends (rq : Examine) (h : (p.fx f).capture.state = .counting) (ht : (p.fx f).capture.total ≤ 16000000)
    (hn : (p.fx f).capture.periods + 1 = (p.fx f).capture.window) {pr : Probe} (hi : (p.fx f).inflight = some i)
    (hg : i.progress = .timing pr) {line : LineIx} {q : Quantity} {w : Nat} (hb : pr.body = .timing line q w) :
    p.risingEdge rq f = (p.periodCounted f).endStep rq f (i.measured pr.unit
      (timingValue q (p.fx f).capture.window (p.fx f).capture.total (p.fx f).capture.high)) := by
  have hi' : ((p.periodCounted f).fx f).inflight = some i := by rw [Part.periodCounted_fx]; exact hi
  refine (Part.risingEdge_counting rq h).trans ?_
  rw [if_neg (not_lt.mpr ht), if_pos hn]
  simp only [Part.windowFull, hi', hg, hb]

theorem Part.overflows_idle (h : (p.fx f).capture.state ≠ .counting) : p.overflows f = p := by
  have hn : p.overflowAt f = none := by
    unfold Part.overflowAt
    split
    next k => exact absurd k h
    next => rfl
  rw [Part.overflows, hn]

theorem Part.overflows_counting (h : (p.fx f).capture.state = .counting) :
    p.overflows f = (p.advanceTo (p.clock + (16000000 - (p.fx f).capture.total))).finish f (.incomplete .noEdges) := by
  have hn : p.overflowAt f = some (p.clock + (16000000 - (p.fx f).capture.total)) := by rw [Part.overflowAt, h]
  rw [Part.overflows, hn]

theorem Fixture.waitingFor_measure {y : Fixture} {n : ProbeIx} {k : Nat} {lo hi : Option Int} {g ms : Nat} (h : y.inflight = some i)
    (hb : i.step.body = .measure n k lo hi g ms) : y.waitingFor = none := by
  simp only [Fixture.waitingFor, h, hb]

/-- A TIMING step that ends gives its capture unit back. -/
theorem Part.finish_timing (hi : (p.fx f).inflight = some i) {pr : Probe} (hg : i.progress = .timing pr)
    (ha : (p.fx f).run.state = .active) (hc : (p.fx f).run.policy = .cont) (hq : (p.fx f).queue = []) (e : StepEnd) :
    p.finish f e = p.modFx f fun x =>
      { x with capture := { x.capture with state := .idle } }.withResult (x.recordFor i.step i.startedAt p.uptime e) := by
  rw [Part.finish_released hi hc ha hq e, Part.releaseStep_timing hi hg, Part.modFx_modFx]
  rfl

end

/-- Settles O41: the pin moves, and whoever waits on its line hears it. -/
theorem linesAreReadAndTimed : Obligations.LinesAreReadAndTimed := by
  unfold Obligations.LinesAreReadAndTimed
  intro s f x
  refine ⟨fun o l => rfl, fun l v => ⟨withBit x.outs.pins l v, fun k => withBit_getLsbD _ l k v, ?_⟩⟩
  intro moved after
  have hx : moved.fx f = { x with outs := after } := Part.withPins_fx _ _ _
  have heard : s.part.powered = true → ∀ {q}, moved.lineReaction Part.runQueue f x.outs = q →
      exec (.lineLevelChange f l v) s = .next (s.withPart q) := fun hp q hq =>
    State.atPin_next ((Part.lineLevel_eq _ _ _ _).trans ((if_pos hp).trans hq))
  have hin : (moved.fx f).outs.inEnable = x.outs.inEnable := by rw [hx]
  refine ⟨fun h => ?_, fun hp ha hq i k level ms hi hg hb => ?_, fun hp i pr n k lo hi' g ms hi hg hb => ?_, fun hp hc => ?_,
    fun hp hc ha hcont hq i pr hi hg => ?_⟩
  · rcases h with hp | ⟨hi, hc⟩
    · exact State.atPin_next ((Part.lineLevel_eq _ _ _ _).trans (if_neg (by rw [hp]; decide)))
    · cases hp : s.part.powered with
      | false => exact State.atPin_next ((Part.lineLevel_eq _ _ _ _).trans (if_neg (by rw [hp]; decide)))
      | true =>
        refine heard hp (Part.lineReaction_unheard Part.runQueue (fun l v => ?_) (by rw [hx]; exact hc) x.outs)
        rw [hx]
        exact fun k => nomatch (Fixture.waitingFor_none (y := { x with outs := after }) hi).symm.trans k
  · have hw : (moved.fx f).waitingFor = some (.line k level) :=
      Fixture.waitingFor_eq_some.mpr ⟨i, by rw [hx]; exact hi, ms, hb⟩
    have hreact := Part.lineReaction_waitFor Part.runQueue hw hin
    rw [hx] at hreact
    refine ⟨fun h1 h2 => heard hp (hreact.trans ((if_pos ⟨fun e => h1 (e.trans h2), h2⟩).trans ?_)), fun h =>
      heard hp (hreact.trans (if_neg fun k => h.elim (fun e => k.1 e.symm) fun e => e k.2))⟩
    have hi' : (moved.fx f).inflight = some i := by rw [hx]; exact hi
    have hfin : moved.finish f .passed = _ := Part.finish_quiet hi' (.inr ⟨by decide, by decide⟩) (by rw [hx]; exact ha)
      (by rw [hx]; exact hq)
    rw [Part.releaseStep_plain hi' hg] at hfin
    exact hfin
  · have hw : (moved.fx f).waitingFor = none := by rw [hx]; exact Fixture.waitingFor_measure hi hb
    have hreact := Part.lineReaction_capture Part.runQueue hw hin
    rw [hx] at hreact
    have hcap : (moved.fx f).capture = x.capture := by rw [hx]
    refine ⟨fun h => heard hp (hreact.trans (if_neg fun k => ?_)), fun h0 h1 => ?_⟩
    · rcases h with h | h
      · exact absurd (h.symm.trans k.2.1) (by decide)
      · exact absurd (h.symm.trans k.2.2) (by decide)
    · have rises : x.capture.state ≠ .idle → moved.lineReaction Part.runQueue f x.outs = moved.risingEdge Part.runQueue f :=
        fun hc => hreact.trans (if_pos ⟨hc, h0, h1⟩)
      refine ⟨fun hc => ?_, fun hc ht hn => ?_, fun hc ht hn ha hcont hq line q w hpr => ?_⟩
      · refine heard hp ((rises (by rw [hc]; decide)).trans ((Part.risingEdge_armed _ (by rw [hcap]; exact hc)).trans ?_))
        exact Part.modFx_congr (by rw [hx])
      · refine heard hp ((rises (by rw [hc]; decide)).trans ((Part.risingEdge_counts _ (by rw [hcap]; exact hc)
          (by rw [hcap]; exact ht) (by rw [hcap]; exact Nat.ne_of_lt hn)).trans ?_))
        exact Part.modFx_congr (by rw [hx])
      · intro u value
        refine heard hp ((rises (by rw [hc]; decide)).trans ((Part.risingEdge_ends Part.runQueue (i := i) (by rw [hcap]; exact hc)
          (by rw [hcap]; exact ht) (by rw [hcap]; exact hn) (by rw [hx]; exact hi) hg hpr).trans ?_))
        have hcounted := Part.periodCounted_fx moved f
        rw [hx] at hcounted
        refine (Part.finish_timing (i := i) (by rw [hcounted]; exact hi) hg (by rw [hcounted]; exact ha) (by rw [hcounted]; exact hcont)
          (by rw [hcounted]; exact hq) _).trans ?_
        have hvalue : timingValue q (moved.fx f).capture.window (moved.fx f).capture.total (moved.fx f).capture.high = value := by
          rw [hcap]; cases q <;> rfl
        rw [hvalue, Part.periodCounted, Part.modFx_modFx]
        refine Part.modFx_congr ?_
        rw [hx, InFlight.measured, hb]
        rfl
  · exact State.event_next (q := s.part) hp (Part.overflows_idle hc)
  · intro p
    refine State.event_next hp ((Part.overflows_counting hc).trans ?_)
    exact Part.finish_timing (i := i) (by rw [Part.advanceTo_fx_inflight]; exact hi) hg (by rw [Part.advanceTo_fx_run]; exact ha)
      (by rw [Part.advanceTo_fx_run]; exact hcont) (by rw [Part.advanceTo_fx_queue]; exact hq) _

end Sys2Proof.Machine
end

section
/-! PROOFS. Bus ports: frames that reach the watch table, and transmit attempts (sections 6.2, 6.3, 6.5 and 8.5). -/

namespace Sys2Proof.Machine

open Sys2Proof

/-- A watch entry matches a frame, bit by bit (R119). -/
theorem Watch.hits_iff (w : Watch) (fr : BusFrame) :
    w.hits fr = true ↔ w.enabled = true ∧ w.extended = fr.extended ∧
      ∀ k : Fin 29, w.mask.getLsbD k.val = true → fr.id.getLsbD k.val = w.id.getLsbD k.val := by
  have hmasked : (fr.id &&& w.mask = w.id &&& w.mask) ↔
      ∀ k : Fin 29, w.mask.getLsbD k.val = true → fr.id.getLsbD k.val = w.id.getLsbD k.val := by
    constructor
    · intro h k hk
      have hbit : (fr.id &&& w.mask).getLsbD k.val = (w.id &&& w.mask).getLsbD k.val := by rw [h]
      rwa [BitVec.getLsbD_and, BitVec.getLsbD_and, hk, Bool.and_true, Bool.and_true] at hbit
    · intro h
      refine BitVec.eq_of_getLsbD_eq fun k hk => ?_
      rw [BitVec.getLsbD_and, BitVec.getLsbD_and]
      cases hm : w.mask.getLsbD k with
      | false => rw [Bool.and_false, Bool.and_false]
      | true => rw [h ⟨k, hk⟩ hm]
  simp only [Watch.hits, Bool.and_eq_true, beq_iff_eq, hmasked, and_assoc]

theorem padTo_take (fill : Byte) (l : List Byte) {n k : Nat} (h : k ≤ n) :
    padTo n fill (l.take k) = l.take k ++ List.replicate (n - (l.take k).length) fill := by
  rw [padTo, List.take_take, Nat.min_eq_right h]

section
variable {p : Part} {f : FixtureIx} {i : InFlight} {fr : BusFrame}

/-- The watch table after a data frame: every entry it matches has caught it. -/
def Part.caughtBy (f : FixtureIx) (fr : BusFrame) (p : Part) : Part :=
  p.modFx f fun x => { x with watch := mapEntries (fun w => if w.hits fr then w.capture fr p.uptime else w) x.watch }

theorem Part.caughtBy_fx (p : Part) (f : FixtureIx) (fr : BusFrame) : (p.caughtBy f fr).fx f =
    { p.fx f with watch := mapEntries (fun w => if w.hits fr then w.capture fr p.uptime else w) (p.fx f).watch } :=
  Part.modFx_fx p f _

theorem Part.caughtBy_watchOf (p : Part) (f : FixtureIx) (fr : BusFrame) (e : Fin 8) : ((p.caughtBy f fr).fx f).watchOf e =
    if ((p.fx f).watchOf e).hits fr then ((p.fx f).watchOf e).capture fr p.uptime else (p.fx f).watchOf e := by
  rw [Part.caughtBy_fx]
  exact getElem_mapEntries _ _ _ _

theorem Fixture.watchedEntry_none {y : Fixture} (h : y.inflight = none) : y.watchedEntry = none := by
  simp only [Fixture.watchedEntry, h]

theorem Fixture.watchedEntry_waitFor {y : Fixture} {e : Fin 8} {ms : Nat} (h : y.inflight = some i) (hg : i.progress = .plain)
    (hb : i.step.body = .waitFor (.frame e) ms) : y.watchedEntry = some e := by
  simp only [Fixture.watchedEntry, h, hg, hb]

theorem Fixture.watchedEntry_frameField {y : Fixture} {e : Fin 8} {pr : Probe} {st w : Nat} {sg : Bool} {num : Int} {den : Nat} {off : Int}
    (h : y.inflight = some i) (hg : i.progress = .frameField pr) (hb : pr.body = .frameField e st w sg num den off) :
    y.watchedEntry = some e := by
  simp only [Fixture.watchedEntry, h, hg, hb]

theorem Part.offer_unwatched (h : ∀ e, (p.fx f).watchedEntry = some e → ((p.fx f).watchOf e).hits fr = false) :
    p.offer f fr = p.caughtBy f fr := by
  unfold Part.offer
  dsimp only
  split
  next e i he hi => rw [if_neg (by rw [h e he]; decide)]; rfl
  next => rfl

theorem Part.offer_watched {e : Fin 8} (he : (p.fx f).watchedEntry = some e) (hi : (p.fx f).inflight = some i)
    (hh : ((p.fx f).watchOf e).hits fr = true) :
    p.offer f fr = (p.caughtBy f fr).finish f (i.matched (((p.caughtBy f fr).fx f).watchOf e)) := by
  simp only [Part.offer, he, hi, hh, if_true]
  rfl

theorem Part.frameEnds_unnoticed (h : (p.fx f).port.state = .inactive ∨ fr.underWay = true ∨ fr.kind = .own) :
    p.frameEnds f fr = p := by
  unfold Part.frameEnds
  split
  next => rfl
  next hn =>
    rcases h with h | h | h
    · exact absurd (.inl h) hn
    · exact absurd (.inr h) hn
    · rw [h]

/-- A port answers a frame on its bus. -/
def Part.answersFrame (f : FixtureIx) (r : BusResponse) (p : Part) : Part := p.modPort f fun t => { t with response := r }

/-- What a port that is not INACTIVE does about a frame (R112, R113). -/
theorem Part.frameEnds_noticed (hs : (p.fx f).port.state ≠ .inactive) (hu : fr.underWay = false) :
    (fr.kind = .damaged → p.frameEnds f fr = p.answersFrame f .error) ∧
    (fr.kind = .remote → p.frameEnds f fr = p.answersFrame f .acknowledge) ∧
    (fr.kind = .data → p.frameEnds f fr = (p.answersFrame f .acknowledge).offer f fr) := by
  have hn : ¬ ((p.fx f).port.state = .inactive ∨ fr.underWay = true) := fun h =>
    h.elim hs fun h => nomatch hu.symm.trans h
  refine ⟨fun h => ?_, fun h => ?_, fun h => ?_⟩ <;>
  · unfold Part.frameEnds
    rw [if_neg hn, h]
    rfl

/-- A step that is served by a frame ends with it. -/
theorem Part.finish_frame (hi : (p.fx f).inflight = some i) (hg : i.progress = .plain ∨ ∃ pr, i.progress = .frameField pr)
    (ha : (p.fx f).run.state = .active) (hc : (p.fx f).run.policy = .cont) (hq : (p.fx f).queue = []) (e : StepEnd) :
    p.finish f e = p.modFx f fun x => x.withResult (x.recordFor i.step i.startedAt p.uptime e) := by
  rw [Part.finish_released hi hc ha hq]
  rcases hg with hg | ⟨pr, hg⟩
  · rw [Part.releaseStep_plain hi hg]
  · rw [Part.releaseStep_frameField hi hg]

/-! ### Transmit attempts (R115 to R117) -/

theorem Part.attemptBegins_starts (h : (p.fx f).port.state = .active ∧ (p.fx f).port.queue ≠ [] ∧ (p.fx f).port.attempt = .none) :
    p.attemptBegins f = p.modPort f fun t => { t with attempt := .head } := if_pos h

theorem Part.attemptBegins_idle (h : (p.fx f).port.state ≠ .active ∨ (p.fx f).port.queue = [] ∨ (p.fx f).port.attempt ≠ .none) :
    p.attemptBegins f = p :=
  if_neg fun k => h.elim (fun h => h k.1) fun h => h.elim (fun h => k.2.1 h) fun h => h k.2.2

theorem Part.attemptOver_none (o : AttemptOutcome) (h : (p.fx f).port.attempt = .none) : p.attemptOver f o = p := by
  simp only [Part.attemptOver, h]

theorem Part.attemptOver_orphan (o : AttemptOutcome) {q : TxFrame} (h : (p.fx f).port.attempt = .orphan q) :
    p.attemptOver f o = p.modPort f fun t => { t with attempt := .none } := by
  simp only [Part.attemptOver, h]

theorem Part.attemptOver_success (h : (p.fx f).port.attempt = .head) :
    p.attemptOver f .success = p.modPort f fun t => { t with queue := t.queue.tail, attempt := .none } := by
  simp only [Part.attemptOver, h]

theorem Part.attemptOver_lost (h : (p.fx f).port.attempt = .head) :
    p.attemptOver f .lostArbitration = p.modPort f fun t => { t with attempt := .none } := by
  simp only [Part.attemptOver, h]

theorem Part.attemptOver_fails (h : (p.fx f).port.attempt = .head) {o : AttemptOutcome} (ho : o = .noAcknowledge ∨ o = .busError) :
    p.attemptOver f o = p.attemptFails f := by
  rcases ho with rfl | rfl <;> simp only [Part.attemptOver, h]

theorem Part.attemptFails_head {h : TxFrame} {rest : List TxFrame} (hq : (p.fx f).port.queue = h :: rest) :
    p.attemptFails f =
      if 8 ≤ h.attempts + 1 then
        (p.modPort f fun t => { t with queue := rest, attempt := .none, response := .error }).post (.txGivenUp f h.id h.extended)
      else p.modPort f fun t =>
        { t with queue := { h with attempts := h.attempts + 1 } :: rest, attempt := .none, response := .error } := by
  simp only [Part.attemptFails, hq]

/-- A change of a port, as the port it leaves. -/
theorem Part.modPort_eq (p : Part) (f : FixtureIx) (g : Port → Port) :
    p.modPort f g = p.modFx f fun x => { x with port := g (p.fx f).port } := Part.modFx_congr rfl

end

/-- Settles O42: a frame reaches a port that hears it and its watch table, and an attempt ends by its outcome. -/
theorem framesReachWatchesAndAttemptsEnd : Obligations.FramesReachWatchesAndAttemptsEnd := by
  unfold Obligations.FramesReachWatchesAndAttemptsEnd
  refine ⟨fun s f fr hp => ?_, fun s f hp => ?_⟩
  · intro x hit length caught answers
    refine ⟨fun h => State.event_next hp (Part.frameEnds_unnoticed h), fun hs hu => ?_⟩
    obtain ⟨hdamaged, hremote, hdata⟩ := Part.frameEnds_noticed (p := s.part) (f := f) (fr := fr) hs hu
    refine ⟨fun hk => State.event_next hp (hdamaged hk), fun hk => State.event_next hp (hremote hk), fun hk => ?_⟩
    have hfx : (s.part.answersFrame f .acknowledge).fx f = { x with port := { x.port with response := .acknowledge } } :=
      Part.modPort_fx _ _ _
    have hwatch : ∀ e, ((s.part.answersFrame f .acknowledge).fx f).watchOf e = x.watchOf e := fun e => by rw [hfx]; rfl
    have hheard : (s.part.answersFrame f .acknowledge).caughtBy f fr = (answers .acknowledge).modFx f fun y =>
        { y with watch := mapEntries (fun w => if w.hits fr then w.capture fr s.part.uptime else w) x.watch } :=
      Part.modFx_congr (by rw [hfx]; rfl)
    have hcaught : ∀ w : Watch, w.capture fr s.part.uptime = caught w := fun w => by
      show ({ w with count := _, length := _, data := padTo 8 0 (fr.data.take length), lastTime := _, fresh := _ } : Watch) = _
      rw [padTo_take 0 fr.data (Nat.min_le_left 8 fr.dlc.toNat)]
      rfl
    refine ⟨mapEntries (fun w => if w.hits fr then w.capture fr s.part.uptime else w) x.watch, fun e => ⟨fun h => ?_, fun h => ?_⟩, ?_⟩
    · refine (getElem_mapEntries _ _ _ _).trans ((if_pos ((Watch.hits_iff _ _).mpr h)).trans (hcaught _))
    · exact (getElem_mapEntries _ _ _ _).trans (if_neg fun k => h ((Watch.hits_iff _ _).mp k))
    · intro heard
      refine ⟨fun h => ?_, fun ha hc hq i e hi hh => ?_⟩
      · refine State.event_next hp ((hdata hk).trans ((Part.offer_unwatched fun e he => ?_).trans hheard))
        rw [hwatch]
        rw [hfx] at he
        exact Bool.eq_false_iff.mpr fun k => h e he ((Watch.hits_iff _ _).mp k)
      · intro ends
        have hcfx := Part.caughtBy_fx (s.part.answersFrame f .acknowledge) f fr
        rw [hfx] at hcfx
        have ended : (s.part.fx f).watchedEntry = some e → (i.progress = .plain ∨ ∃ pr, i.progress = .frameField pr) →
            ends (i.matched (((s.part.answersFrame f .acknowledge).caughtBy f fr).fx f |>.watchOf e)) := fun he hg => by
          refine State.event_next hp ((hdata hk).trans ((Part.offer_watched (i := i) (e := e) (by rw [hfx]; exact he)
            (by rw [hfx]; exact hi) (by rw [hwatch]; exact (Watch.hits_iff _ _).mpr hh)).trans ?_))
          refine (Part.finish_frame (i := i) (by rw [hcfx]; exact hi) hg (by rw [hcfx]; exact ha) (by rw [hcfx]; exact hc)
            (by rw [hcfx]; exact hq) _).trans ?_
          rw [hheard]
          rfl
        refine ⟨fun ms hg hb => ?_, fun pr st w sg num den off n k lo hi' g ms hg hpr hb => ?_⟩
        · have hend := ended (Fixture.watchedEntry_waitFor hi hg hb) (.inl hg)
          rw [InFlight.matched, hg] at hend
          exact hend
        · intro value
          have hend := ended (Fixture.watchedEntry_frameField hi hg hpr) (.inr ⟨pr, hg⟩)
          rw [hcfx] at hend
          simp only [InFlight.matched, hg, hpr, InFlight.measured, hb] at hend
          exact hend
  · intro t put
    refine ⟨fun h1 h2 h3 => State.event_next hp ((Part.attemptBegins_starts ⟨h1, h2, h3⟩).trans (Part.modPort_eq _ _ _)),
      fun h => State.event_next (q := s.part) hp (Part.attemptBegins_idle h),
      fun h o => State.event_next (q := s.part) hp (Part.attemptOver_none o h),
      fun fr h o => State.event_next hp ((Part.attemptOver_orphan o h).trans (Part.modPort_eq _ _ _)), fun ht h rest hq => ?_⟩
    refine ⟨State.event_next hp ((Part.attemptOver_success ht).trans ((Part.modPort_eq _ _ _).trans ?_)),
      State.event_next hp ((Part.attemptOver_lost ht).trans (Part.modPort_eq _ _ _)), fun o ho => ?_⟩
    · have htail : (s.part.fx f).port.queue.tail = rest := congrArg List.tail hq
      rw [htail]
    · have hfails := (Part.attemptOver_fails ht ho).trans (Part.attemptFails_head hq)
      refine ⟨fun hn => State.event_next hp (hfails.trans ((if_neg (by omega)).trans (Part.modPort_eq _ _ _))),
        fun hn => State.event_next hp (hfails.trans ((if_pos hn).trans ?_))⟩
      rw [Part.modPort_eq]

end Sys2Proof.Machine
end

section
/-! PROOFS. DEFINE_WATCH and READ_WATCH (sections 6.5 and 11.5). -/

namespace Sys2Proof.Machine

open Sys2Proof

/-- What DEFINE_WATCH asks of its fields (R118, check 3). -/
def WatchFieldsOk (p : List Byte) : Prop :=
  byteAt p 1 ≤ 7 ∧ byteAt p 10 ≤ 1 ∧ byteAt p 11 ≤ 1 ∧ u32At p 2 ≤ (if byteAt p 10 = 0 then 0x7FF else 0x1FFFFFFF) ∧
    u32At p 6 ≤ 0x1FFFFFFF

/-- The entry that DEFINE_WATCH's bytes give. -/
def watchOfBytes (p : List Byte) : Watch :=
  { enabled := byteAt p 11 == 1, extended := byteAt p 10 == 1, id := BitVec.ofNat 29 (u32At p 2), mask := BitVec.ofNat 29 (u32At p 6) }

theorem boolOf_le_one {k : Nat} (h : k ≤ 1) : boolOf k = some (k == 1) := by
  rcases (by omega : k = 0 ∨ k = 1) with rfl | rfl <;> rfl

theorem le_one_of_boolOf {k : Nat} {b : Bool} (h : boolOf k = some b) : k ≤ 1 := by
  rw [boolOf_eq_some_iff.mp h]
  cases b <;> decide

theorem WatchFieldsOk.parse {p : List Byte} (h : WatchFieldsOk p) {e : Fin 8} (he : byteAt p 1 = e.val) :
    parseWatch p = some (e, watchOfBytes p) := by
  obtain ⟨_, hx, hen, hid, hmask⟩ := h
  have hneed : need (if (byteAt p 10 == 1) = true then u32At p 2 ≤ 0x1FFFFFFF else u32At p 2 ≤ 0x7FF) = some () := by
    refine need_eq_some_iff.mpr ?_
    rcases (by omega : byteAt p 10 = 0 ∨ byteAt p 10 = 1) with hk | hk <;> rw [hk] at hid ⊢ <;> exact decide_eq_true hid
  have hneedMask : need (decide (u32At p 6 ≤ 0x1FFFFFFF)) = some () := need_eq_some_iff.mpr (decide_eq_true hmask)
  simp only [parseWatch, finOf_eq_some.mpr he, boolOf_le_one hx, boolOf_le_one hen, Option.bind_eq_bind, Option.bind_some, hneed,
    hneedMask]
  rfl

theorem WatchFieldsOk.of_parse {p : List Byte} {w : Fin 8 × Watch} (h : parseWatch p = some w) : WatchFieldsOk p := by
  simp only [parseWatch, Option.bind_eq_bind, Option.bind_eq_some_iff, need_eq_some_iff, exists_const, decide_eq_true_eq, finOf_eq_some]
    at h
  obtain ⟨e, he, x, hx, en, hen, hid, hmask, _⟩ := h
  have := e.isLt
  refine ⟨by omega, le_one_of_boolOf hx, le_one_of_boolOf hen, ?_, hmask⟩
  rw [boolOf_eq_some_iff] at hx
  cases x <;> rw [hx] <;> exact of_decide_eq_true hid

section
variable {p : Part} {f : FixtureIx} {e : Fin 8} {payload : List Byte} {i : InFlight}

theorem Part.defineWatch_unfitted (hn : payload.length = 12) (h : byteAt payload 0 = f.val) (hf : p.isFitted f = false) :
    p.defineWatch payload = p.refuse .notFitted := by
  rw [Part.defineWatch, Part.ofLength_of_eq hn, Part.atFixture_unfitted hf h]

theorem Part.defineWatch_badFields (hn : payload.length = 12) (h : byteAt payload 0 = f.val) (hf : p.isFitted f = true)
    (hw : parseWatch payload = none) : p.defineWatch payload = p.refuse .badField := by
  rw [Part.defineWatch, Part.ofLength_of_eq hn, Part.atFixture_fitted hf h]
  simp only [hw]

theorem Part.defineWatch_parsed (hn : payload.length = 12) (h : byteAt payload 0 = f.val) (hf : p.isFitted f = true) {w : Watch}
    (hw : parseWatch payload = some (e, w)) :
    p.defineWatch payload = ((p.modWatch f e fun _ => w).watchChanged f e).accept [] := by
  rw [Part.defineWatch, Part.ofLength_of_eq hn, Part.atFixture_fitted hf h]
  simp only [hw]

theorem Part.modWatch_fx (p : Part) (f : FixtureIx) (e : Fin 8) (g : Watch → Watch) :
    (p.modWatch f e g).fx f = { p.fx f with watch := (p.fx f).watch.set e.val (g ((p.fx f).watchOf e)) e.isLt } := Part.modFx_fx p f _

theorem Part.modWatch_watchOf (p : Part) (f : FixtureIx) (e : Fin 8) (g : Watch → Watch) :
    ((p.modWatch f e g).fx f).watchOf e = g ((p.fx f).watchOf e) := by
  rw [Part.modWatch_fx]
  exact Vector.getElem_set_self _

theorem Part.watchChanged_unwatched (h : ((p.fx f).watchOf e).enabled = true ∨ (p.fx f).watchedEntry ≠ some e) :
    p.watchChanged f e = p :=
  if_neg fun k => h.elim (fun h => Bool.false_ne_true (k.2.symm.trans h)) fun h => h k.1

theorem Part.watchChanged_waitFor (hw : ((p.fx f).watchOf e).enabled = false) (he : (p.fx f).watchedEntry = some e)
    (hi : (p.fx f).inflight = some i) (hg : i.progress = .plain) :
    p.watchChanged f e = p.finish f (.incomplete .watchDisabled) := by
  refine (if_pos ⟨he, hw⟩).trans ?_
  simp only [hi, hg]

theorem Part.watchChanged_frameField (hw : ((p.fx f).watchOf e).enabled = false) (he : (p.fx f).watchedEntry = some e)
    (hi : (p.fx f).inflight = some i) {pr : Probe} (hg : i.progress = .frameField pr) :
    p.watchChanged f e = p.finish f (.incomplete .undefinedProbe) := by
  refine (if_pos ⟨he, hw⟩).trans ?_
  simp only [hi, hg]

theorem Part.readWatch_named (hf : p.isFitted f = true) (e : Fin 8) :
    p.readWatch [BitVec.ofNat 8 f.val, BitVec.ofNat 8 e.val] = p.accept ((p.fx f).watchReport e) := by
  have he : byteAt [BitVec.ofNat 8 f.val, BitVec.ofNat 8 e.val] 1 = e.val := by
    have := e.isLt
    exact (BitVec.toNat_ofNat _ _).trans (Nat.mod_eq_of_lt (by omega))
  rw [Part.readWatch, Part.ofLength_of_eq (n := 2) (payload := [_, _]) rfl, Part.atFixture_fitted hf (byteAt_fixture f _)]
  simp only [finOf_eq_some.mpr he]

theorem Part.readWatch_unfitted (hf : p.isFitted f = false) (b : Byte) : p.readWatch [BitVec.ofNat 8 f.val, b] = p.refuse .notFitted := by
  rw [Part.readWatch, Part.ofLength_of_eq (n := 2) (payload := [_, _]) rfl, Part.atFixture_unfitted hf (byteAt_fixture f _)]

theorem Part.readWatch_unnamed (hf : p.isFitted f = true) {b : Byte} (h : 7 < b.toNat) :
    p.readWatch [BitVec.ofNat 8 f.val, b] = p.refuse .badField := by
  rw [Part.readWatch, Part.ofLength_of_eq (n := 2) (payload := [_, _]) rfl, Part.atFixture_fitted hf (byteAt_fixture f _)]
  simp only [finOf_none (show 8 ≤ byteAt [BitVec.ofNat 8 f.val, b] 1 from h)]

/-! ### The 30 bytes of READ_WATCH -/

/-- The bytes of a watch entry before its data. -/
def Watch.reportHead (w : Watch) : List Byte :=
  flag w.enabled ++ flag w.extended ++ le32 w.id.toNat ++ le32 w.mask.toNat ++ le16 w.count ++ le8 w.length

/-- The bytes of a watch report after the entry's data. -/
def Fixture.reportTail (x : Fixture) (w : Watch) : List Byte :=
  le32 w.lastTime.toNat ++ flag w.fresh ++ le8 x.port.state.code ++
    le8 (if x.port.state = .inactive then 255 else x.run.busRate.code) ++ le8 x.port.queue.length ++
    le8 ((x.port.queue.head?.map (·.attempts)).getD 255)

@[simp] theorem Watch.length_reportHead (w : Watch) : w.reportHead.length = 13 := by simp [Watch.reportHead]

@[simp] theorem Fixture.length_reportTail (x : Fixture) (w : Watch) : (x.reportTail w).length = 9 := by simp [Fixture.reportTail]

theorem Fixture.watchReport_eq (x : Fixture) (e : Fin 8) :
    x.watchReport e = (x.watchOf e).reportHead ++ (padTo 8 0 (x.watchOf e).data ++ x.reportTail (x.watchOf e)) := by
  simp only [Fixture.watchReport, Watch.reportHead, Fixture.reportTail, List.append_assoc]

theorem Watch.reportHead_fields (w : Watch) :
    byteAt w.reportHead 0 = flagNat w.enabled ∧ byteAt w.reportHead 1 = flagNat w.extended ∧ u32At w.reportHead 2 = w.id.toNat ∧
      u32At w.reportHead 6 = w.mask.toNat ∧ u16At w.reportHead 10 = w.count % 65536 ∧ byteAt w.reportHead 12 = w.length % 256 := by
  have hid : w.id.toNat < 2 ^ 32 := by have := w.id.isLt; omega
  have hmask : w.mask.toNat < 2 ^ 32 := by have := w.mask.isLt; omega
  simp [Watch.reportHead, u32At_le32_of_lt hid, u32At_le32_of_lt hmask, u16At_le16, byteAt_le8]

theorem PortState.code_lt (v : PortState) : v.code < 256 := by cases v <;> decide

theorem Fixture.reportTail_fields (x : Fixture) (w : Watch) :
    let r := x.reportTail w
    u32At r 0 = w.lastTime.toNat ∧ byteAt r 4 = flagNat w.fresh ∧ byteAt r 5 = x.port.state.code ∧
      byteAt r 6 = (if x.port.state = .inactive then 255 else x.run.busRate.code) ∧ byteAt r 7 = x.port.queue.length % 256 ∧
      byteAt r 8 = ((x.port.queue.head?.map (·.attempts)).getD 255) % 256 := by
  have hrate : (if x.port.state = .inactive then 255 else x.run.busRate.code) < 256 := by
    split
    · decide
    · exact BusRate.code_lt _
  simp [Fixture.reportTail, byteAt_le8, Nat.mod_eq_of_lt hrate, Nat.mod_eq_of_lt (PortState.code_lt _)]

theorem padTo_of_length {n : Nat} {l : List Byte} (fill : Byte) (h : l.length = n) : padTo n fill l = l := by
  rw [padTo, h, Nat.sub_self, List.replicate_zero, List.append_nil, ← h, List.take_length]

theorem Fixture.watchReport_fields (x : Fixture) (e : Fin 8) :
    let w := x.watchOf e
    let d := x.watchReport e
    d.length = 30 ∧
      byteAt d 0 = flagNat w.enabled ∧ byteAt d 1 = flagNat w.extended ∧ u32At d 2 = w.id.toNat ∧ u32At d 6 = w.mask.toNat ∧
      (w.count ≤ 65535 → u16At d 10 = w.count) ∧ (w.length ≤ 8 → byteAt d 12 = w.length) ∧
      (w.data.length = 8 → (d.drop 13).take 8 = w.data) ∧ u32At d 21 = w.lastTime.toNat ∧ byteAt d 25 = flagNat w.fresh ∧
      byteAt d 26 = x.port.state.code ∧ byteAt d 27 = (if x.port.state = .inactive then 255 else x.run.busRate.code) ∧
      (x.port.queue.length ≤ 16 → byteAt d 28 = x.port.queue.length) ∧ (x.port.queue = [] → byteAt d 29 = 255) ∧
      ∀ h rest, x.port.queue = h :: rest → h.attempts ≤ 7 → byteAt d 29 = h.attempts := by
  intro w d
  have hd : d = w.reportHead ++ (padTo 8 0 w.data ++ x.reportTail w) := x.watchReport_eq e
  obtain ⟨h0, h1, h2, h6, h10, h12⟩ := w.reportHead_fields
  obtain ⟨t0, t4, t5, t6, t7, t8⟩ := x.reportTail_fields w
  have tail : ∀ k, k < 9 → byteAt d (21 + k) = byteAt (x.reportTail w) k := fun k hk => by
    rw [hd, byteAt_append_right (by simp; omega), byteAt_append_right (by simp; omega), length_padTo, Watch.length_reportHead]
    congr 1
    omega
  have head : ∀ k, k < 13 → byteAt d k = byteAt w.reportHead k := fun k hk => by rw [hd, byteAt_append_left (by simpa using hk)]
  have hlen : d.length = 30 := by rw [hd]; simp
  have h10' : u16At d 10 = w.count % 65536 := by rw [hd, u16At_append_left (by simp), h10]
  refine ⟨hlen, (head 0 (by decide)).trans h0, (head 1 (by decide)).trans h1, ?_, ?_,
    fun h => h10'.trans (Nat.mod_eq_of_lt (by omega)), fun h => (head 12 (by decide)).trans (h12.trans (Nat.mod_eq_of_lt (by omega))),
    fun h => ?_, ?_, (tail 4 (by decide)).trans t4, (tail 5 (by decide)).trans t5, (tail 6 (by decide)).trans t6,
    fun h => (tail 7 (by decide)).trans (t7.trans (Nat.mod_eq_of_lt (by omega))), fun h => (tail 8 (by decide)).trans (t8.trans ?_),
    fun h rest hq ha => (tail 8 (by decide)).trans (t8.trans ?_)⟩
  · rw [hd, u32At_append_left (by simp), h2]
  · rw [hd, u32At_append_left (by simp), h6]
  · rw [hd, List.drop_left' w.length_reportHead, List.take_left' (length_padTo _ _ _), padTo_of_length 0 h]
  · rw [hd, u32At_append_right (by simp), u32At_append_right (by simp), Watch.length_reportHead, length_padTo]
    exact t0
  · rw [h]
    rfl
  · rw [hq]
    exact Nat.mod_eq_of_lt (show h.attempts < 256 by omega)

end

end Sys2Proof.Machine
end

section
/-! PROOFS. DEFINE_PROBE (sections 7.1 and 11.5). -/

namespace Sys2Proof.Machine

open Sys2Proof

/-! ## What the bytes of a probe definition say -/

/-- What DEFINE_PROBE asks of an ANALOG probe (R125). -/
def AnalogFieldsOk (p : List Byte) : Prop :=
  byteAt p 4 ≤ 11 ∧ byteAt p 5 ≤ 1 ∧ (byteAt p 5 = 0 → byteAt p 6 ≤ 15) ∧ byteAt p 7 ∈ [1, 2, 4, 8, 16, 32, 64] ∧
    (byteAt p 4 ≤ 7 → -2000000 ≤ s32At p 8 ∧ s32At p 8 < s32At p 12 ∧ s32At p 12 ≤ 2000000)

/-- What DEFINE_PROBE asks of a TIMING probe (R125). -/
def TimingFieldsOk (p : List Byte) : Prop := byteAt p 4 ≤ 7 ∧ byteAt p 5 ≤ 3 ∧ 1 ≤ byteAt p 6 ∧ byteAt p 6 ≤ 16

/-- What DEFINE_PROBE asks of a FRAME_FIELD probe (R125). -/
def FrameFieldsOk (p : List Byte) : Prop :=
  byteAt p 4 ≤ 7 ∧ byteAt p 5 ≤ 63 ∧ 1 ≤ byteAt p 6 ∧ byteAt p 6 ≤ 32 ∧ byteAt p 5 + byteAt p 6 ≤ 64 ∧ byteAt p 7 ≤ 1 ∧
    1 ≤ u16At p 10 ∧ u16At p 10 ≤ 32767

/-- What DEFINE_PROBE asks of the fields of its kind (R125, check 4). -/
def ProbeFieldsOk (p : List Byte) : Prop :=
  match byteAt p 1 with
  | 1 => AnalogFieldsOk p
  | 2 => TimingFieldsOk p
  | _ => FrameFieldsOk p

/-- A probe's body says what the bytes of a definition say. -/
def ProbeBody.SaidBy (p : List Byte) : ProbeBody → Prop
  | .analog point settle samples low high => byteAt p 1 = 1 ∧ point.val = byteAt p 4 ∧ samples = byteAt p 7 ∧ low = s32At p 8 ∧
      high = s32At p 12 ∧ settle = if byteAt p 5 = 0 then .fixed (byteAt p 6) else .ready
  | .timing line q w => byteAt p 1 = 2 ∧ line.val = byteAt p 4 ∧ q.code = byteAt p 5 ∧ w = byteAt p 6
  | .frameField e st w sg num den off => byteAt p 1 = 3 ∧ e.val = byteAt p 4 ∧ st = byteAt p 5 ∧ w = byteAt p 6 ∧
      sg = (byteAt p 7 == 1) ∧ num = s16At p 8 ∧ den = u16At p 10 ∧ off = s32At p 12

section
variable {p : List Byte} {b : ProbeBody}

/-- The settle of an ANALOG probe, where its bytes give one. -/
def settleOfBytes (p : List Byte) : Option Settle :=
  if byteAt p 5 = 1 then some .ready else if byteAt p 5 = 0 && byteAt p 6 ≤ 15 then some (.fixed (byteAt p 6)) else none

theorem parseAnalog_eq (p : List Byte) : parseAnalog p =
    (finOf 12 (byteAt p 4)).bind fun point => (settleOfBytes p).bind fun settle =>
      (need ([1, 2, 4, 8, 16, 32, 64].contains (byteAt p 7))).bind fun _ =>
        (need (8 ≤ point.val || (-2000000 ≤ s32At p 8 && s32At p 8 < s32At p 12 && s32At p 12 ≤ 2000000))).bind fun _ =>
          some (.analog point settle (byteAt p 7) (s32At p 8) (s32At p 12)) := by
  refine congrArg (Option.bind _) (funext fun point => ?_)
  unfold settleOfBytes
  by_cases h1 : byteAt p 5 = 1
  · rw [if_pos h1, if_pos h1]
    rfl
  · rw [if_neg h1, if_neg h1]
    split <;> rfl

theorem AnalogFieldsOk.parse (h1 : byteAt p 1 = 1) (h : AnalogFieldsOk p) : ∃ b, parseProbeBody p = some b ∧ b.SaidBy p := by
  obtain ⟨hpoint, hkind, hfixed, hsamples, hspan⟩ := h
  have hneed : need ([1, 2, 4, 8, 16, 32, 64].contains (byteAt p 7)) = some () :=
    need_eq_some_iff.mpr (List.contains_iff_mem.mpr hsamples)
  have hlimits : need (8 ≤ byteAt p 4 || (-2000000 ≤ s32At p 8 && s32At p 8 < s32At p 12 && s32At p 12 ≤ 2000000)) = some () := by
    refine need_eq_some_iff.mpr ?_
    by_cases hk : byteAt p 4 ≤ 7
    · obtain ⟨hl, hm, hu⟩ := hspan hk
      simp [hl, hm, hu]
    · simp [show 8 ≤ byteAt p 4 by omega]
  have hf : finOf 12 (byteAt p 4) = some ⟨byteAt p 4, by omega⟩ := finOf_eq_some.mpr rfl
  have hsettle : settleOfBytes p = some (if byteAt p 5 = 0 then .fixed (byteAt p 6) else .ready) := by
    rcases (by omega : byteAt p 5 = 0 ∨ byteAt p 5 = 1) with hk | hk
    · simp [settleOfBytes, hk, hfixed hk]
    · simp [settleOfBytes, hk]
  refine ⟨.analog ⟨byteAt p 4, by omega⟩ (if byteAt p 5 = 0 then .fixed (byteAt p 6) else .ready) (byteAt p 7) (s32At p 8)
    (s32At p 12), ?_, h1, rfl, rfl, rfl, rfl, rfl⟩
  simp only [parseProbeBody, h1, parseAnalog_eq, hf, hsettle, hneed, hlimits, Option.bind_some]

theorem TimingFieldsOk.parse (h1 : byteAt p 1 = 2) (h : TimingFieldsOk p) : ∃ b, parseProbeBody p = some b ∧ b.SaidBy p := by
  obtain ⟨hline, hkind, hlow, hhigh⟩ := h
  have hq : ∃ q, quantityOf (byteAt p 5) = some q ∧ q.code = byteAt p 5 := by
    rcases (by omega : byteAt p 5 = 0 ∨ byteAt p 5 = 1 ∨ byteAt p 5 = 2 ∨ byteAt p 5 = 3) with hk | hk | hk | hk <;> rw [hk]
    exacts [⟨.periodUs, rfl, rfl⟩, ⟨.highUs, rfl, rfl⟩, ⟨.dutyPermille, rfl, rfl⟩, ⟨.freqMhz, rfl, rfl⟩]
  obtain ⟨q, hq, hcode⟩ := hq
  have hneed : need (1 ≤ byteAt p 6 && byteAt p 6 ≤ 16) = some () := need_eq_some_iff.mpr (by simp [hlow, hhigh])
  have hf : finOf 8 (byteAt p 4) = some ⟨byteAt p 4, by omega⟩ := finOf_eq_some.mpr rfl
  refine ⟨.timing ⟨byteAt p 4, by omega⟩ q (byteAt p 6), ?_, h1, rfl, hcode, rfl⟩
  simp only [parseProbeBody, h1, parseTiming, hf, hq, hneed, Option.bind_eq_bind, Option.bind_some, Option.pure_def]

theorem FrameFieldsOk.parse (h1 : byteAt p 1 = 3) (h : FrameFieldsOk p) : ∃ b, parseProbeBody p = some b ∧ b.SaidBy p := by
  obtain ⟨hentry, hstart, hlow, hhigh, hsum, hsigned, hden, hden'⟩ := h
  have hneed : need (byteAt p 5 ≤ 63 && 1 ≤ byteAt p 6 && byteAt p 6 ≤ 32 && byteAt p 5 + byteAt p 6 ≤ 64) = some () :=
    need_eq_some_iff.mpr (by simp [hstart, hlow, hhigh, hsum])
  have hneedDen : need (1 ≤ u16At p 10 && u16At p 10 ≤ 32767) = some () := need_eq_some_iff.mpr (by simp [hden, hden'])
  have hf : finOf 8 (byteAt p 4) = some ⟨byteAt p 4, by omega⟩ := finOf_eq_some.mpr rfl
  refine ⟨.frameField ⟨byteAt p 4, by omega⟩ (byteAt p 5) (byteAt p 6) (byteAt p 7 == 1) (s16At p 8) (u16At p 10) (s32At p 12), ?_,
    h1, rfl, rfl, rfl, rfl, rfl, rfl, rfl⟩
  simp only [parseProbeBody, h1, parseFrameField, hf, hneed, boolOf_le_one hsigned, hneedDen, Option.bind_eq_bind, Option.bind_some,
    Option.pure_def]

theorem ProbeFieldsOk.parse (h1 : 1 ≤ byteAt p 1) (h3 : byteAt p 1 ≤ 3) (h : ProbeFieldsOk p) :
    ∃ b, parseProbeBody p = some b ∧ b.SaidBy p := by
  rcases (by omega : byteAt p 1 = 1 ∨ byteAt p 1 = 2 ∨ byteAt p 1 = 3) with hk | hk | hk <;> simp only [ProbeFieldsOk, hk] at h
  · exact AnalogFieldsOk.parse hk h
  · exact TimingFieldsOk.parse hk h
  · exact FrameFieldsOk.parse hk h

theorem AnalogFieldsOk.of_parse (h : parseAnalog p = some b) : AnalogFieldsOk p := by
  rw [parseAnalog_eq] at h
  simp only [Option.bind_eq_some_iff, need_eq_some_iff, exists_const, finOf_eq_some, List.contains_iff_mem, Bool.or_eq_true,
    Bool.and_eq_true, decide_eq_true_eq] at h
  obtain ⟨point, hpoint, settle, hsettle, hsamples, hlimits, _⟩ := h
  have hset : byteAt p 5 = 1 ∨ byteAt p 5 = 0 ∧ byteAt p 6 ≤ 15 := by
    unfold settleOfBytes at hsettle
    split_ifs at hsettle with h1 h2
    · exact .inl h1
    · exact .inr (by simpa using h2)
  have hlt := point.isLt
  refine ⟨by omega, by omega, fun k => ?_, hsamples, fun k => ?_⟩
  · exact hset.elim (fun e => by omega) fun e => e.2
  · exact hlimits.elim (fun e => by omega) fun e => ⟨e.1.1, e.1.2, e.2⟩

theorem le_three_of_quantityOf {k : Nat} {q : Quantity} (h : quantityOf k = some q) : k ≤ 3 := by
  unfold quantityOf at h
  split_ifs at h <;> omega

theorem TimingFieldsOk.of_parse (h : parseTiming p = some b) : TimingFieldsOk p := by
  simp only [parseTiming, Option.bind_eq_bind, Option.bind_eq_some_iff, need_eq_some_iff, exists_const, finOf_eq_some,
    Bool.and_eq_true, decide_eq_true_eq] at h
  obtain ⟨line, hline, q, hq, ⟨hlow, hhigh⟩, _⟩ := h
  have hlt := line.isLt
  exact ⟨by omega, le_three_of_quantityOf hq, hlow, hhigh⟩

theorem FrameFieldsOk.of_parse (h : parseFrameField p = some b) : FrameFieldsOk p := by
  simp only [parseFrameField, Option.bind_eq_bind, Option.bind_eq_some_iff, need_eq_some_iff, exists_const, finOf_eq_some,
    Bool.and_eq_true, decide_eq_true_eq] at h
  obtain ⟨entry, hentry, ⟨⟨⟨hstart, hlow⟩, hhigh⟩, hsum⟩, signed, hsigned, ⟨hden, hden'⟩, _⟩ := h
  have hlt := entry.isLt
  exact ⟨by omega, hstart, hlow, hhigh, hsum, le_one_of_boolOf hsigned, hden, hden'⟩

theorem ProbeFieldsOk.of_parse (h1 : 1 ≤ byteAt p 1) (h3 : byteAt p 1 ≤ 3) (h : parseProbeBody p = some b) : ProbeFieldsOk p := by
  rcases (by omega : byteAt p 1 = 1 ∨ byteAt p 1 = 2 ∨ byteAt p 1 = 3) with hk | hk | hk <;>
    simp only [ProbeFieldsOk, parseProbeBody, hk] at h ⊢
  · exact AnalogFieldsOk.of_parse h
  · exact TimingFieldsOk.of_parse h
  · exact FrameFieldsOk.of_parse h

theorem parseProbe_eq_some {f : FixtureIx} {d : Probe} : parseProbe f p = some d ↔
    byteAt p 3 ≤ 15 ∧ ∃ b, parseProbeBody p = some b ∧ { fixture := f, unit := byteAt p 3, body := b } = d := by
  simp only [parseProbe, Option.bind_eq_bind, Option.bind_eq_some_iff, need_eq_some_iff, exists_const, decide_eq_true_eq, Option.pure_def,
    Option.some_inj]

end

/-! ## The request -/

section
variable {p : Part} {payload : List Byte} {n : ProbeIx} {f : FixtureIx}

theorem Part.probeInUse_iff (p : Part) (n : ProbeIx) : p.probeInUse n = true ↔ ∃ f i samples lower upper guard timeout,
    (p.fx f).inflight = some i ∧ i.step.body = .measure n samples lower upper guard timeout := by
  rw [Part.probeInUse, List.any_eq_true]
  constructor
  · rintro ⟨f, _, h⟩
    split at h
    next i hi =>
      split at h
      next k samples lower upper guard timeout hb =>
        cases of_decide_eq_true h
        exact ⟨f, i, samples, lower, upper, guard, timeout, hi, hb⟩
      next => cases h
    next => cases h
  · rintro ⟨f, i, samples, lower, upper, guard, timeout, hi, hb⟩
    refine ⟨f, mem_allFixtures f, ?_⟩
    simp only [hi, hb, decide_true]

theorem Part.defineProbe_badKind (hn : payload.length = 16) (h : 127 < byteAt payload 0 ∨ byteAt payload 1 = 0 ∨ 3 < byteAt payload 1) :
    p.defineProbe payload = p.refuse .badField := by
  rw [Part.defineProbe, Part.ofLength_of_eq hn]
  by_cases hb : 127 < byteAt payload 0
  · simp only [finOf_none (show 128 ≤ byteAt payload 0 from hb)]
  · have hf : finOf 128 (byteAt payload 0) = some ⟨byteAt payload 0, by omega⟩ := finOf_eq_some.mpr rfl
    simp only [hf]
    exact if_pos (h.elim (fun k => absurd k hb) fun k => k.imp (fun e => by omega) id)

theorem Part.defineProbe_kind (hn : payload.length = 16) (h0 : byteAt payload 0 = n.val) (h1 : 1 ≤ byteAt payload 1)
    (h3 : byteAt payload 1 ≤ 3) : p.defineProbe payload = p.atFixture payload 2 fun f p =>
      match parseProbe f payload with
      | none => p.refuse .badField
      | some d =>
        if p.probeInUse n then p.refuse .inUse
        else { p with probes := p.probes.set n.val (some d) n.isLt }.accept [] := by
  rw [Part.defineProbe, Part.ofLength_of_eq hn]
  simp only [finOf_eq_some.mpr h0]
  exact if_neg (by omega)

end

end Sys2Proof.Machine
end

section
/-! PROOFS. READ_PROBE, and the four requests of watches and probes together (sections 6.5, 7.1 and 11.5). -/

namespace Sys2Proof.Machine

open Sys2Proof

theorem s16At_leInt16 {v : Int} (h1 : -32768 ≤ v) (h2 : v ≤ 32767) : s16At (leInt16 v) 0 = v := by
  rw [s16At, leInt16, u16At_le16_of_lt (BitVec.isLt _), BitVec.ofNat_toNat, BitVec.setWidth_eq, BitVec.toInt_ofInt]
  exact Int.bmod_eq_of_le (by omega) (by omega)

@[simp] theorem length_leInt16 (v : Int) : (leInt16 v).length = 2 := length_le16 _

@[simp] theorem s16At_append_left {l k : List Byte} {i : Nat} (h : i + 1 < l.length) : s16At (l ++ k) i = s16At l i := by
  rw [s16At, u16At_append_left h, s16At]

@[simp] theorem s16At_append_right {l k : List Byte} {i : Nat} (h : l.length ≤ i) : s16At (l ++ k) i = s16At k (i - l.length) := by
  rw [s16At, u16At_append_right h, s16At]

/-! ## The 12 bytes of a probe's kind -/

@[simp] theorem ProbeBody.length_encode (b : ProbeBody) : b.encode.length = 12 := by
  cases b with
  | analog point settle n low high => cases settle <;> simp [ProbeBody.encode]
  | timing line q w => simp [ProbeBody.encode]
  | frameField e st w sg num den off => simp [ProbeBody.encode]

/-- The bytes of a kind report the probe's body. -/
def ProbeBody.ReportedAs (r : List Byte) : ProbeBody → Prop
  | .analog point settle samples low high => byteAt r 0 = point.val ∧
      (match settle with
        | .fixed k => byteAt r 1 = 0 ∧ (k ≤ 15 → byteAt r 2 = k)
        | .ready => byteAt r 1 = 1 ∧ byteAt r 2 = 0) ∧
      (samples ≤ 64 → byteAt r 3 = samples) ∧
      (point.val ≤ 7 → -2000000 ≤ low → low ≤ 2000000 → s32At r 4 = low) ∧
      (point.val ≤ 7 → -2000000 ≤ high → high ≤ 2000000 → s32At r 8 = high) ∧
      (7 < point.val → s32At r 4 = 0 ∧ s32At r 8 = if point = 8 then 20000 else if point = 9 then 5000000 else 10000)
  | .timing line q w => byteAt r 0 = line.val ∧ byteAt r 1 = q.code ∧ (w ≤ 16 → byteAt r 2 = w) ∧
      r.drop 3 = List.replicate 9 0
  | .frameField e st w sg num den off => byteAt r 0 = e.val ∧ (st ≤ 63 → byteAt r 1 = st) ∧ (w ≤ 32 → byteAt r 2 = w) ∧
      byteAt r 3 = flagNat sg ∧ (-32768 ≤ num → num ≤ 32767 → s16At r 4 = num) ∧ (den ≤ 32767 → u16At r 6 = den) ∧
      (-2147483648 ≤ off → off ≤ 2147483647 → s32At r 8 = off)

theorem pointSpan_own {point : Fin 12} (h : point.val ≤ 7) (low high : Int) : pointSpan point low high = (low, high) := by
  have h8 : point ≠ 8 ∧ point ≠ 9 ∧ point ≠ 10 ∧ point ≠ 11 := by
    refine ⟨?_, ?_, ?_, ?_⟩ <;> rintro rfl <;> exact absurd h (by decide)
  obtain ⟨h8, h9, h10, h11⟩ := h8
  rw [pointSpan, if_neg h8, if_neg h9, if_neg h10, if_neg h11]

theorem pointSpan_fixed {point : Fin 12} (h : 7 < point.val) (low high : Int) :
    pointSpan point low high = (0, if point = 8 then 20000 else if point = 9 then 5000000 else 10000) := by
  have hpoint : point = 8 ∨ point = 9 ∨ point = 10 ∨ point = 11 := by
    have := point.isLt
    rcases (by omega : point.val = 8 ∨ point.val = 9 ∨ point.val = 10 ∨ point.val = 11) with e | e | e | e
    exacts [.inl (Fin.ext e), .inr (.inl (Fin.ext e)), .inr (.inr (.inl (Fin.ext e))), .inr (.inr (.inr (Fin.ext e)))]
  rcases hpoint with rfl | rfl | rfl | rfl <;> rfl

theorem ProbeBody.encode_analog (point : Fin 12) (settle : Settle) (samples : Nat) (low high : Int) :
    (ProbeBody.analog point settle samples low high).ReportedAs (ProbeBody.analog point settle samples low high).encode := by
  have hp : point.val < 256 := by have := point.isLt; omega
  have spans : s32At (ProbeBody.analog point settle samples low high).encode 4 = s32At (leInt32 (pointSpan point low high).1) 0 ∧
      s32At (ProbeBody.analog point settle samples low high).encode 8 = s32At (leInt32 (pointSpan point low high).2) 0 := by
    cases settle <;> simp [ProbeBody.encode]
  refine ⟨?_, ?_, fun h => ?_, fun h h1 h2 => ?_, fun h h1 h2 => ?_, fun h => ?_⟩
  · cases settle <;> simp [ProbeBody.encode, byteAt_le8_of_lt hp]
  · cases settle with
    | fixed k => exact ⟨by simp [ProbeBody.encode, byteAt_le8], fun hk => by simp [ProbeBody.encode,
        byteAt_le8_of_lt (show k < 256 by omega)]⟩
    | ready => exact ⟨by simp [ProbeBody.encode, byteAt_le8], by simp [ProbeBody.encode, byteAt_le8]⟩
  · have hs := byteAt_le8_of_lt (show samples < 256 by omega)
    cases settle <;> simp [ProbeBody.encode, hs]
  · rw [spans.1, pointSpan_own h]
    exact s32At_leInt32 (by omega) (by omega)
  · rw [spans.2, pointSpan_own h]
    exact s32At_leInt32 (by omega) (by omega)
  · rw [spans.1, spans.2, pointSpan_fixed h]
    have hbound : ∀ v : Int, 0 ≤ v → v ≤ 5000000 → s32At (leInt32 v) 0 = v := fun v h1 h2 => s32At_leInt32 (by omega) (by omega)
    exact ⟨hbound 0 (by decide) (by decide), hbound _ (by split_ifs <;> decide) (by split_ifs <;> decide)⟩

theorem Quantity.code_lt (q : Quantity) : q.code < 256 := by cases q <;> decide

theorem ProbeBody.encode_timing (line : LineIx) (q : Quantity) (w : Nat) :
    (ProbeBody.timing line q w).ReportedAs (ProbeBody.timing line q w).encode := by
  have hl : line.val < 256 := by have := line.isLt; omega
  have henc : (ProbeBody.timing line q w).encode = le8 line.val ++ le8 q.code ++ le8 w ++ List.replicate 9 0 := rfl
  refine ⟨?_, ?_, fun h => ?_, ?_⟩ <;> rw [henc]
  · simp [byteAt_le8_of_lt hl]
  · simp [byteAt_le8_of_lt (Quantity.code_lt q)]
  · simp [byteAt_le8_of_lt (show w < 256 by omega)]
  · exact List.drop_left' (by simp)

theorem ProbeBody.encode_frameField (e : Fin 8) (st w : Nat) (sg : Bool) (num : Int) (den : Nat) (off : Int) :
    (ProbeBody.frameField e st w sg num den off).ReportedAs (ProbeBody.frameField e st w sg num den off).encode := by
  have he : e.val < 256 := by have := e.isLt; omega
  refine ⟨?_, fun h => ?_, fun h => ?_, ?_, fun h1 h2 => ?_, fun h => ?_, fun h1 h2 => ?_⟩
  · simp [ProbeBody.encode, byteAt_le8_of_lt he]
  · simp [ProbeBody.encode, byteAt_le8_of_lt (show st < 256 by omega)]
  · simp [ProbeBody.encode, byteAt_le8_of_lt (show w < 256 by omega)]
  · simp [ProbeBody.encode]
  · simp [ProbeBody.encode, s16At_leInt16 h1 h2]
  · simp [ProbeBody.encode, u16At_le16_of_lt (show den < 65536 by omega)]
  · simp [ProbeBody.encode, s32At_leInt32 h1 h2]

theorem ProbeBody.encode_reports (b : ProbeBody) : b.ReportedAs b.encode := by
  cases b with
  | analog point settle samples low high => exact ProbeBody.encode_analog point settle samples low high
  | timing line q w => exact ProbeBody.encode_timing line q w
  | frameField e st w sg num den off => exact ProbeBody.encode_frameField e st w sg num den off

/-! ## The 18 bytes of READ_PROBE -/

/-- The data of a READ_PROBE reply. -/
def Part.probeReport (p : Part) (n : ProbeIx) : List Byte :=
  flag (p.probe n).isSome ++ encodeProbe n (p.probe n) ++ flag (p.probeInUse n)

@[simp] theorem length_encodeProbe (n : ProbeIx) (d : Option Probe) : (encodeProbe n d).length = 16 := by
  cases d <;> simp [encodeProbe]

theorem ProbeIx.byte (n : ProbeIx) : n.val < 256 := by have := n.isLt; omega

theorem Part.probeReport_frame (p : Part) (n : ProbeIx) :
    (p.probeReport n).length = 18 ∧ byteAt (p.probeReport n) 0 = flagNat (p.probe n).isSome ∧
      byteAt (p.probeReport n) 17 = flagNat (p.probeInUse n) ∧ byteAt (p.probeReport n) 1 = n.val := by
  have hn : byteAt (encodeProbe n (p.probe n)) 0 = n.val := by
    cases p.probe n with
    | none => exact byteAt_le8_of_lt (ProbeIx.byte n)
    | some d => simp [encodeProbe, byteAt_le8_of_lt (ProbeIx.byte n)]
  simp [Part.probeReport, hn]

theorem Part.probeReport_none {p : Part} {n : ProbeIx} (h : p.probe n = none) :
    ((p.probeReport n).drop 2).take 15 = List.replicate 15 0 := by
  rw [Part.probeReport, h]
  rfl

theorem Part.probeReport_some {p : Part} {n : ProbeIx} {d : Probe} (h : p.probe n = some d) :
    byteAt (p.probeReport n) 2 = d.body.kindCode ∧ byteAt (p.probeReport n) 3 = d.fixture.val ∧
      (d.unit ≤ 15 → byteAt (p.probeReport n) 4 = d.unit) := by
  have hk : d.body.kindCode < 256 := by cases d.body <;> simp [ProbeBody.kindCode]
  have hf : d.fixture.val < 256 := by have := d.fixture.isLt; omega
  refine ⟨?_, ?_, fun hu => ?_⟩ <;> simp only [Part.probeReport, h, encodeProbe]
  · simp [byteAt_le8_of_lt hk]
  · simp [byteAt_le8_of_lt hf]
  · simp [byteAt_le8_of_lt (show d.unit < 256 by omega)]

/-- A report with a defined probe: five bytes before those of its kind, one after. -/
theorem Part.probeReport_body {p : Part} {n : ProbeIx} {d : Probe} (h : p.probe n = some d) :
    ∃ head, head.length = 5 ∧ p.probeReport n = head ++ (d.body.encode ++ flag (p.probeInUse n)) := by
  refine ⟨flag true ++ (le8 n.val ++ le8 d.body.kindCode ++ le8 d.fixture.val ++ le8 d.unit), by simp, ?_⟩
  simp only [Part.probeReport, h, encodeProbe, List.append_assoc, Option.isSome_some]

theorem Part.readProbe_named (p : Part) (n : ProbeIx) : p.readProbe [BitVec.ofNat 8 n.val] = p.accept (p.probeReport n) := by
  have hn : byteAt [BitVec.ofNat 8 n.val] 0 = n.val := (BitVec.toNat_ofNat _ _).trans (Nat.mod_eq_of_lt (ProbeIx.byte n))
  rw [Part.readProbe, Part.ofLength_of_eq (n := 1) (payload := [_]) rfl]
  simp only [finOf_eq_some.mpr hn]
  rfl

theorem Part.readProbe_unnamed (p : Part) {big : Byte} (h : 127 < big.toNat) : p.readProbe [big] = p.refuse .badField := by
  rw [Part.readProbe, Part.ofLength_of_eq (n := 1) (payload := [_]) rfl]
  simp only [finOf_none (show 128 ≤ byteAt [big] 0 from h)]

/-- Where a report has the fields of the probe's kind. -/
theorem Part.probeReport_shift {p : Part} {n : ProbeIx} {d : Probe} (h : p.probe n = some d) :
    (∀ k, k < 12 → byteAt (p.probeReport n) (5 + k) = byteAt d.body.encode k) ∧
      (∀ k, k < 11 → u16At (p.probeReport n) (5 + k) = u16At d.body.encode k) ∧
      (∀ k, k < 9 → s32At (p.probeReport n) (5 + k) = s32At d.body.encode k) := by
  obtain ⟨head, hlen, e⟩ := Part.probeReport_body h
  rw [e, ← hlen]
  refine ⟨fun k hk => ?_, fun k hk => ?_, fun k hk => ?_⟩
  · rw [byteAt_append_right (Nat.le_add_right _ _), Nat.add_sub_cancel_left, byteAt_append_left (by simpa using hk)]
  · rw [u16At_append_right (Nat.le_add_right _ _), Nat.add_sub_cancel_left, u16At_append_left (by simp; omega)]
  · rw [s32At_append_right (Nat.le_add_right _ _), Nat.add_sub_cancel_left, s32At_append_left (by simp; omega)]

theorem Part.probeReport_tail {p : Part} {n : ProbeIx} {d : Probe} (h : p.probe n = some d) :
    ((p.probeReport n).drop 8).take 9 = d.body.encode.drop 3 := by
  obtain ⟨head, hlen, e⟩ := Part.probeReport_body h
  have hdrop : (p.probeReport n).drop 8 = d.body.encode.drop 3 ++ flag (p.probeInUse n) := by
    rw [e, show 8 = head.length + 3 by omega, List.drop_append, List.drop_eq_nil_of_le (by omega), List.nil_append,
      Nat.add_sub_cancel_left, List.drop_append_of_le_length (by simp)]
  rw [hdrop, List.take_left' (by simp)]

/-! ## The obligation, a request at a time -/

section
variable {s : State} {tag : Byte} {f : FixtureIx} {payload : List Byte} {e : Fin 8} {i : InFlight}

/-- A part after DEFINE_WATCH has set its entry. -/
def Part.putWatch (f : FixtureIx) (e : Fin 8) (payload : List Byte) (p : Part) : Part := p.modWatch f e fun _ => watchOfBytes payload

theorem exec_defineWatch (hl : s.Listening) (hn : payload.length = 12) (h : byteAt payload 0 = f.val) (hf : s.part.isFitted f = true)
    (hok : WatchFieldsOk payload) (he : byteAt payload 1 = e.val) {r : Part}
    (hr : ((s.part.asked 0x40 tag).putWatch f e payload).watchChanged f e = r.asked 0x40 tag)
    (h1 : r.link = s.part.link) :
    exec (.defineWatch tag payload) s = .next (s.withPart (r.answered 0xC0 tag [0x00])) :=
  request_answered hl (by decide) r ((Part.defineWatch_parsed (p := s.part.asked 0x40 tag) hn h hf (hok.parse he)).trans
    (congrArg (fun q : Part => q.accept []) hr)) (by rw [h1]; exact hl.free) (by rw [h1]; exact hl.noRequest) (by rw [h1]; exact hl.noReply)

theorem Part.putWatch_fx (p : Part) (f : FixtureIx) (e : Fin 8) (payload : List Byte) :
    (p.putWatch f e payload).fx f = { p.fx f with watch := (p.fx f).watch.set e.val (watchOfBytes payload) e.isLt } := Part.modFx_fx p f _

theorem Part.putWatch_watchOf (p : Part) (f : FixtureIx) (e : Fin 8) (payload : List Byte) :
    ((p.putWatch f e payload).fx f).watchOf e = watchOfBytes payload := Part.modWatch_watchOf p f e _

/-- The step that waited on the entry ends. -/
theorem Part.asked_watchEnds (p : Part) (hi : (p.fx f).inflight = some i)
    (hg : i.progress = .plain ∨ ∃ pr, i.progress = .frameField pr) (ha : (p.fx f).run.state = .active)
    (hc : (p.fx f).run.policy = .cont) (hq : (p.fx f).queue = []) (v : StepEnd) :
    ((p.asked 0x40 tag).putWatch f e payload).finish f v = ((p.putWatch f e payload).modFx f fun x =>
      x.withResult (x.recordFor i.step i.startedAt p.uptime v)).asked 0x40 tag := by
  have hfx : ((p.asked 0x40 tag).putWatch f e payload).fx f = _ := Part.putWatch_fx (p.asked 0x40 tag) f e payload
  refine Part.finish_frame (i := i) ?_ hg ?_ ?_ ?_ v <;> rw [hfx] <;> assumption

end

/-- Settles O43: the watch requests and the probe requests, with their checks and reports. -/
theorem watchesAndProbesAreDefinedAndRead : Obligations.WatchesAndProbesAreDefinedAndRead := by
  unfold Obligations.WatchesAndProbesAreDefinedAndRead
  refine ⟨fun s tag f hl => ?_, fun s tag n hl => ?_⟩
  · intro x
    refine ⟨fun payload hn h0 => ?_, fun hf e => ?_, fun hf b => ?_, fun hf b hb => ?_⟩
    · intro c enabled fieldsOk
      have hx : byteAt payload 0 = f.val := (congrArg BitVec.toNat h0).trans (byteAt_fixture f [])
      refine ⟨fun hf => ?_, fun hf hbad => ?_, fun hf hok e he => ?_⟩
      · exact request_refused hl (by decide) (Part.defineWatch_unfitted (p := s.part.asked 0x40 tag) hn hx hf)
      · have hnone : parseWatch payload = none :=
          Option.eq_none_iff_forall_ne_some.mpr fun w hw => hbad (WatchFieldsOk.of_parse hw)
        exact request_refused hl (by decide) (Part.defineWatch_badFields (p := s.part.asked 0x40 tag) hn hx hf hnone)
      · intro put
        have hfx : ((s.part.asked 0x40 tag).putWatch f e payload).fx f = _ := Part.putWatch_fx (s.part.asked 0x40 tag) f e payload
        have hw : (((s.part.asked 0x40 tag).putWatch f e payload).fx f).watchOf e = watchOfBytes payload :=
          Part.putWatch_watchOf (s.part.asked 0x40 tag) f e payload
        have hentry : (((s.part.asked 0x40 tag).putWatch f e payload).fx f).watchedEntry = x.watchedEntry := by rw [hfx]; rfl
        have hin : (((s.part.asked 0x40 tag).putWatch f e payload).fx f).inflight = x.inflight := by rw [hfx]; rfl
        refine ⟨fun h => ?_, fun hen ha hc hq i hi => ?_⟩
        · refine exec_defineWatch (r := s.part.putWatch f e payload) hl hn hx hf hok he (Part.watchChanged_unwatched ?_) rfl
          rw [hw, hentry]
          exact h
        · intro ends
          refine ⟨fun ms hg hb => ?_, fun pr st w sg num den off hg hpr => ?_⟩
          · exact exec_defineWatch hl hn hx hf hok he ((Part.watchChanged_waitFor (i := i) (by rw [hw]; exact hen)
              (hentry.trans (Fixture.watchedEntry_waitFor hi hg hb)) (hin.trans hi) hg).trans
              (Part.asked_watchEnds s.part hi (.inl hg) ha hc hq _)) rfl
          · exact exec_defineWatch hl hn hx hf hok he ((Part.watchChanged_frameField (i := i) (by rw [hw]; exact hen)
              (hentry.trans (Fixture.watchedEntry_frameField hi hg hpr)) (hin.trans hi) hg).trans
              (Part.asked_watchEnds s.part hi (.inr ⟨pr, hg⟩) ha hc hq _)) rfl
    · intro w
      exact ⟨x.watchReport e, request_answered hl (by decide) s.part (Part.readWatch_named (p := s.part.asked 0x41 tag) hf e)
        hl.free hl.noRequest hl.noReply, x.watchReport_fields e⟩
    · exact request_refused hl (by decide) (Part.readWatch_unfitted (p := s.part.asked 0x41 tag) hf b)
    · exact request_refused hl (by decide) (Part.readWatch_unnamed (p := s.part.asked 0x41 tag) hf hb)
  · refine ⟨fun payload hn => ?_, s.part.probeInUse_iff n, fun big hb => ?_, s.part.probeReport n, ?_⟩
    · intro c b kindOk
      have hkind : kindOk ↔ ProbeFieldsOk payload := Iff.rfl
      refine ⟨fun h => ?_, fun h0 h1 h3 hf => ?_, fun h0 h1 h3 f h2 hf => ?_⟩
      · exact request_refused hl (by decide) (Part.defineProbe_badKind (p := s.part.asked 0x50 tag) hn h)
      · have hnum : byteAt payload 0 = (⟨byteAt payload 0, Nat.lt_succ_of_le h0⟩ : ProbeIx).val := rfl
        exact request_refused hl (by decide) ((Part.defineProbe_kind (p := s.part.asked 0x50 tag) hn hnum h1 h3).trans
          (Part.atFixture_none (p := s.part.asked 0x50 tag) hf _))
      · have hdefine := (Part.defineProbe_kind (p := s.part.asked 0x50 tag) hn h0 h1 h3).trans
          (Part.atFixture_fitted (p := s.part.asked 0x50 tag) hf h2 _)
        refine ⟨fun hbad => ?_, fun hu hk huse => ?_, fun hu hk huse => ?_⟩
        · have hnone : parseProbe f payload = none := Option.eq_none_iff_forall_ne_some.mpr fun d hd => by
            obtain ⟨hu, body, hbody, _⟩ := parseProbe_eq_some.mp hd
            exact hbad ⟨hu, hkind.mpr (ProbeFieldsOk.of_parse h1 h3 hbody)⟩
          simp only [hnone] at hdefine
          exact request_refused hl (by decide) hdefine
        · obtain ⟨body, hbody, hsays⟩ := ProbeFieldsOk.parse h1 h3 (hkind.mp hk)
          simp only [parseProbe_eq_some.mpr ⟨hu, body, hbody, rfl⟩] at hdefine
          exact request_refused hl (by decide) (hdefine.trans (if_pos huse))
        · obtain ⟨body, hbody, hsays⟩ := ProbeFieldsOk.parse h1 h3 (hkind.mp hk)
          simp only [parseProbe_eq_some.mpr ⟨hu, body, hbody, rfl⟩] at hdefine
          refine ⟨_, request_answered hl (by decide) { s.part with probes := s.part.probes.set n.val _ n.isLt }
            (hdefine.trans (if_neg (by rw [show (s.part.asked 0x50 tag).probeInUse n = s.part.probeInUse n from rfl, huse]; decide)))
            hl.free hl.noRequest hl.noReply, rfl, rfl, ?_⟩
          cases body <;> exact hsays
    · exact request_refused hl (by decide) (Part.readProbe_unnamed (p := s.part.asked 0x51 tag) hb)
    · obtain ⟨hlen, h0, h17, h1⟩ := s.part.probeReport_frame n
      refine ⟨request_answered hl (by decide) s.part (Part.readProbe_named (s.part.asked 0x51 tag) n) hl.free hl.noRequest hl.noReply,
        hlen, h0, h17, h1, Part.probeReport_none, fun d hd => ?_⟩
      obtain ⟨h2, h3, h4⟩ := Part.probeReport_some hd
      obtain ⟨byte, word, int⟩ := Part.probeReport_shift hd
      have htail := Part.probeReport_tail hd
      have hrep := d.body.encode_reports
      refine ⟨h3, h4, ?_⟩
      cases hb : d.body with
      | analog point settle samples low high =>
        rw [hb] at h2 byte word int hrep
        obtain ⟨r0, r1, r3, r4, r8, rfix⟩ := hrep
        refine ⟨h2, (byte 0 (by decide)).trans r0, ?_, fun h => (byte 3 (by decide)).trans (r3 h),
          fun h a b => (int 4 (by decide)).trans (r4 h a b), fun h a b => (int 8 (by decide)).trans (r8 h a b),
          fun h => ⟨(int 4 (by decide)).trans (rfix h).1, (int 8 (by decide)).trans (rfix h).2⟩⟩
        cases settle with
        | fixed k => exact ⟨(byte 1 (by decide)).trans r1.1, fun h => (byte 2 (by decide)).trans (r1.2 h)⟩
        | ready => exact ⟨(byte 1 (by decide)).trans r1.1, (byte 2 (by decide)).trans r1.2⟩
      | timing line q w =>
        rw [hb] at h2 byte htail hrep
        obtain ⟨r0, r1, r2, r3⟩ := hrep
        exact ⟨h2, (byte 0 (by decide)).trans r0, (byte 1 (by decide)).trans r1, fun h => (byte 2 (by decide)).trans (r2 h),
          htail.trans r3⟩
      | frameField e st w sg num den off =>
        rw [hb] at h2 byte word int hrep
        obtain ⟨r0, r1, r2, r3, r4, r6, r8⟩ := hrep
        refine ⟨h2, (byte 0 (by decide)).trans r0, fun h => (byte 1 (by decide)).trans (r1 h),
          fun h => (byte 2 (by decide)).trans (r2 h), (byte 3 (by decide)).trans r3, fun a b => ?_,
          fun h => (word 6 (by decide)).trans (r6 h), fun a b => (int 8 (by decide)).trans (r8 a b)⟩
        rw [s16At, word 4 (by decide)]
        exact r4 a b

end Sys2Proof.Machine
end

section
/-! PROOFS. Lends that begin (section 7.5). -/

namespace Sys2Proof.Machine

open Sys2Proof

section
variable {p : Part} {src : LendSource} {limit : Nat}

theorem Part.lendRequest_free (h : p.conv.burst = none) : p.lendRequest src limit = p.grantLend src limit :=
  if_pos (by rw [h]; rfl)

theorem Part.lendRequest_waits (h : p.conv.burst ≠ none) :
    p.lendRequest src limit = p.modLend fun l => { l with matrix := .pending src limit } :=
  if_neg fun k => h (Option.isNone_iff_eq_none.mp k)

theorem Part.lendMatrix_pair (p : Part) (low high : Byte) :
    p.lendMatrix [low, high] =
      if ¬ (100 ≤ low.toNat + 256 * high.toNat ∧ low.toNat + 256 * high.toNat ≤ 10000) then p.refuse .badField
      else if p.lend.matrix ≠ .owned then p.refuse .inUse
      else (p.lendRequest .request (low.toNat + 256 * high.toNat)).accept
        (le8 (p.lendRequest .request (low.toNat + 256 * high.toNat)).lend.matrix.code) := by
  rw [Part.lendMatrix, Part.ofLength_of_eq (n := 2) (payload := [_, _]) rfl]
  refine if_congr ?_ rfl rfl
  rw [← lendMsOk_iff, Bool.not_eq_true, Bool.not_eq_true']
  exact Iff.rfl

theorem Part.holdRises_raised (h : p.lend.holdLine = true) : p.holdRises = p := if_pos h

/-- The hold line's pin set. -/
def Part.withHold (up : Bool) (p : Part) : Part := p.modLend fun l => { l with holdLine := up }

theorem Part.holdRises_unheard (h : p.lend.holdLine = false) (hu : p.powered = false ∨ p.lend.holdBlocked = true) :
    p.holdRises = p.withHold true := by
  refine (if_neg (by rw [h]; decide)).trans (if_pos ?_)
  show (!p.powered || p.lend.holdBlocked) = true
  rcases hu with hu | hu <;> rw [hu] <;> simp

/-- What a running part does about a hold line that rises. -/
def Part.holdRaised (p : Part) : Part :=
  match p.lend.matrix with
  | .owned => p.lendRequest .hold p.lend.holdLimit
  | .pending .request _ => p.modLend fun l => { l with holdBlocked := true }
  | .lent .request _ _ => p.modLend fun l => { l with holdBlocked := true }
  | .pending .hold _ => p
  | .lent .hold _ _ => p

theorem Part.holdRises_heard (h : p.lend.holdLine = false) (hp : p.powered = true) (hb : p.lend.holdBlocked = false) :
    p.holdRises = (p.withHold true).holdRaised := by
  have hn : ¬ (!(p.withHold true).powered || (p.withHold true).lend.holdBlocked) = true := by
    show ¬ (!p.powered || p.lend.holdBlocked) = true
    rw [hp, hb]
    decide
  exact (if_neg (by rw [h]; decide)).trans (if_neg hn)

theorem Part.holdRaised_owned (h : p.lend.matrix = .owned) : p.holdRaised = p.lendRequest .hold p.lend.holdLimit := by
  rw [Part.holdRaised, h]

theorem Part.holdRaised_requested {t : Nat} (h : p.lend.matrix = .pending .request limit ∨ p.lend.matrix = .lent .request limit t) :
    p.holdRaised = p.modLend fun l => { l with holdBlocked := true } := by
  rcases h with h | h <;> rw [Part.holdRaised, h]

theorem Part.lendGranted_pending (h : p.lend.matrix = .pending src limit) :
    p.lendGranted = if p.conv.burst.isNone then p.grantLend src limit else p := by
  rw [Part.lendGranted, h]

theorem Part.lendGranted_none (h : p.lend.matrix = .owned ∨ ∃ src limit t, p.lend.matrix = .lent src limit t) : p.lendGranted = p := by
  rcases h with h | ⟨src, limit, t, h⟩ <;> rw [Part.lendGranted, h]

theorem Part.acknowledgeLine_iff (p : Part) :
    p.acknowledgeLine = true ↔ p.powered = true ∧ ∃ src limit t, p.lend.matrix = .lent src limit t := by
  unfold Part.acknowledgeLine
  cases p.lend.matrix <;> simp

end

/-- Settles O44: the matrix is lent between bursts, at the request, at the hold line, or after the burst. -/
theorem lendsAreGrantedBetweenBursts : Obligations.LendsAreGrantedBetweenBursts := by
  unfold Obligations.LendsAreGrantedBetweenBursts
  intro s tag l lent pending
  refine ⟨fun hl hroom low high => ?_, fun h => State.atPin_next (q := s.part) (Part.holdRises_raised h), fun h => ?_,
    fun hp => ⟨fun src limit hm => ⟨fun hb => ?_, fun hb => ?_⟩, fun h => ?_⟩, s.part.acknowledgeLine_iff⟩
  · intro ms c
    have hpair := (s.part.asked 0x52 tag).lendMatrix_pair low high
    have taken : 100 ≤ ms → ms ≤ 10000 → l.matrix = .owned → _ := fun h1 h2 hm =>
      hpair.trans ((if_neg (not_not_intro ⟨h1, h2⟩)).trans (if_neg (not_not_intro hm)))
    refine ⟨fun h => ?_, fun h1 h2 hm => ?_, fun h1 h2 hm hb => ?_, fun h1 h2 hm hb => ?_⟩
    · exact request_refused hl (by decide) (hpair.trans (if_pos fun k => h.elim (fun e => absurd k.1 (Nat.not_le_of_gt e))
        fun e => absurd k.2 (Nat.not_le_of_gt e)))
    · exact request_refused hl (by decide) (hpair.trans ((if_neg (not_not_intro ⟨h1, h2⟩)).trans (if_pos hm)))
    · have hreq : (s.part.asked 0x52 tag).lendRequest .request ms =
          ((lent s.part .request ms).noticed [.matrixEvent .lent .request ms]).asked 0x52 tag :=
        (Part.lendRequest_free (p := s.part.asked 0x52 tag) hb).trans (Part.asked_post_room (p := lent s.part .request ms) hroom _ _ _)
      refine request_answered hl (by decide) ((lent s.part .request ms).noticed [.matrixEvent .lent .request ms])
        ((taken h1 h2 hm).trans ?_) hl.free hl.noRequest hl.noReply
      exact congrArg (fun q : Part => q.accept (le8 q.lend.matrix.code)) hreq
    · have hreq : (s.part.asked 0x52 tag).lendRequest .request ms = (pending s.part .request ms).asked 0x52 tag :=
        Part.lendRequest_waits (p := s.part.asked 0x52 tag) hb
      refine request_answered hl (by decide) (pending s.part .request ms) ((taken h1 h2 hm).trans ?_) hl.free hl.noRequest hl.noReply
      exact congrArg (fun q : Part => q.accept (le8 q.lend.matrix.code)) hreq
  · intro up
    refine ⟨fun hu => State.atPin_next (Part.holdRises_unheard h hu), fun hp hb => ?_⟩
    have heard := Part.holdRises_heard h hp hb
    refine ⟨fun hm hfree => ?_, fun hm hbusy => ?_, fun limit t hm => ?_⟩
    · exact State.atPin_next (heard.trans ((Part.holdRaised_owned (p := s.part.withHold true) hm).trans
        (Part.lendRequest_free (p := s.part.withHold true) hfree)))
    · exact State.atPin_next (heard.trans ((Part.holdRaised_owned (p := s.part.withHold true) hm).trans
        (Part.lendRequest_waits (p := s.part.withHold true) hbusy)))
    · exact State.atPin_next (heard.trans (Part.holdRaised_requested (p := s.part.withHold true) hm))
  · exact State.event_next hp ((Part.lendGranted_pending hm).trans (if_pos (by rw [hb]; rfl)))
  · exact State.event_next (q := s.part) hp ((Part.lendGranted_pending hm).trans
      (if_neg fun k => hb (Option.isNone_iff_eq_none.mp k)))
  · exact State.event_next (q := s.part) hp (Part.lendGranted_none h)

end Sys2Proof.Machine
end

section
/-! PROOFS. Lends that end (section 7.5). -/

namespace Sys2Proof.Machine

open Sys2Proof

/-! ## What hears of the end -/

theorem Fixture.unbelow_quiescent {x : Fixture} {i : InFlight} {last : Option Reading} {since : Option (BitVec 32)} {due : Option Nat}
    (h : x.inflight = some i) (hg : i.progress = .quiescent last since due) :
    x.unbelow = { x with inflight := some { i with progress := .quiescent last none due } } := by
  simp only [Fixture.unbelow, h, Option.map_some, InFlight.unbelow, hg]

theorem Fixture.unbelow_other {x : Fixture}
    (h : ∀ i, x.inflight = some i → ∀ last since due, i.progress ≠ .quiescent last since due) : x.unbelow = x := by
  unfold Fixture.unbelow
  cases hi : x.inflight with
  | none => rw [Option.map_none, ← hi]
  | some i =>
    have hsame : i.unbelow = i := by
      unfold InFlight.unbelow
      split
      next last since due hg => exact absurd hg (h i hi last since due)
      next => rfl
    rw [Option.map_some, hsame, ← hi]

/-- Every QUIESCENT step hears its below_since cleared. -/
def Part.unbelowAll (p : Part) : Part := p.each allFixtures fun f q => q.clearBelow f

theorem Part.unbelowAll_fx (p : Part) (f : FixtureIx) : p.unbelowAll.fx f = (p.fx f).unbelow := by
  simp only [Part.unbelowAll, Part.clearBelow_eq]
  rw [Part.each_modFx_fx (by decide), if_pos (mem_allFixtures f)]

theorem Part.unbelowAll_rest (p : Part) : { p.unbelowAll with fixtures := p.fixtures } = p := by
  refine Part.each_invariant (R := fun q => { q with fixtures := p.fixtures } = p) (fun f q hq => ?_) rfl allFixtures
  rw [Part.clearBelow_eq]
  exact hq

theorem Part.unbelowAll_conv (p : Part) : p.unbelowAll.conv = p.conv := (congrArg Part.conv p.unbelowAll_rest :)

theorem Part.unbelowAll_lend (p : Part) : p.unbelowAll.lend = p.lend := (congrArg Part.lend p.unbelowAll_rest :)

theorem Part.unbelowAll_clock (p : Part) : p.unbelowAll.clock = p.clock := (congrArg Part.clock p.unbelowAll_rest :)

theorem Part.unbelowAll_link (p : Part) : p.unbelowAll.link = p.link := (congrArg Part.link p.unbelowAll_rest :)

theorem Part.tryBurst_conv (p : Part) : ∃ v, p.tryBurst = { p with conv := v } := by
  have hbegin : ∀ (v : Converter) r i n plan, ∃ w, ({ p with conv := v } : Part).beginBurst r i n plan = { p with conv := w } :=
    fun v r i n plan => by cases plan <;> exact ⟨_, rfl⟩
  unfold Part.tryBurst
  split
  · split
    · exact hbegin p.conv _ _ _ _
    · split
      · exact ⟨p.conv, rfl⟩
      · dsimp only
        split
        · exact hbegin { p.conv with rangeSettle := _ } _ _ _ _
        · exact hbegin p.conv _ _ _ _
  · exact ⟨p.conv, rfl⟩

/-- A waiting reference check is granted before anything else. -/
theorem Part.tryBurst_check {p : Part} (hb : p.conv.burst = none) (hm : p.lend.matrix = .owned) {n : Nat}
    (hr : p.conv.reference = some n) :
    p.tryBurst.conv = { p.conv with
      burst := some { requester := .reference, input := .reference, count := min 8 n, stage := .settling (p.clock + 200)
                      orphan := false, broken := false } } := by
  rw [Part.tryBurst_reference hb hm hr]
  rfl

/-! ## The end of a lend -/

/-- The part has the matrix back: every QUIESCENT step has heard, the last input is empty and the reference check comes first. -/
structure Part.HasBack (p q : Part) (blocked : Bool) : Prop where
  lend : q.lend = { p.lend with matrix := .owned, holdBlocked := blocked }
  fx : ∀ f, q.fx f = (p.fx f).unbelow
  unasked : p.conv.reference = none → (∀ f, p.conv.req f = none) → q.conv = { p.conv with lastInput := none }
  reference : ∀ n, p.conv.reference = some n → p.conv.burst = none → q.conv = { p.conv with
    lastInput := none
    burst := some { requester := .reference, input := .reference, count := min 8 n, stage := .settling (p.clock + 200)
                    orphan := false, broken := false } }
  rest : { q with fixtures := p.fixtures, conv := p.conv, lend := p.lend, link := p.link } = p

section
variable {p : Part} {kind : MatrixEvent} {src : LendSource} {t : Nat}

/-- A part whose lend has ended, before its converter grants what waits. -/
def Part.lendOver (kind : MatrixEvent) (src : LendSource) (t : Nat) (p : Part) : Part :=
  (((p.modLend fun l => { l with matrix := .owned }).post
    (.matrixEvent kind src (p.uptime - BitVec.ofNat 32 (t / 1000)).toNat)).modConv fun v => { v with lastInput := none }).unbelowAll

theorem Part.endLend_eq (p : Part) (kind : MatrixEvent) (src : LendSource) (t : Nat) :
    p.endLend kind src t = (p.lendOver kind src t).tryBurst := rfl

theorem Part.lendOver_rest (p : Part) (kind : MatrixEvent) (src : LendSource) (t : Nat) :
    { p.lendOver kind src t with fixtures := p.fixtures } =
      { p with lend := { p.lend with matrix := .owned }, conv := { p.conv with lastInput := none }
               link := (p.post (.matrixEvent kind src (p.uptime - BitVec.ofNat 32 (t / 1000)).toNat)).link } :=
  Part.unbelowAll_rest _

theorem Part.lendOver_lend (p : Part) (kind : MatrixEvent) (src : LendSource) (t : Nat) :
    (p.lendOver kind src t).lend = { p.lend with matrix := .owned } := by
  rw [Part.lendOver, Part.unbelowAll_lend]
  rfl

theorem Part.lendOver_conv (p : Part) (kind : MatrixEvent) (src : LendSource) (t : Nat) :
    (p.lendOver kind src t).conv = { p.conv with lastInput := none } := by
  rw [Part.lendOver, Part.unbelowAll_conv]
  rfl

theorem Part.lendOver_clock (p : Part) (kind : MatrixEvent) (src : LendSource) (t : Nat) : (p.lendOver kind src t).clock = p.clock := by
  rw [Part.lendOver, Part.unbelowAll_clock]
  rfl

theorem Part.lendOver_link (p : Part) (kind : MatrixEvent) (src : LendSource) (t : Nat) :
    (p.lendOver kind src t).link = (p.post (.matrixEvent kind src (p.uptime - BitVec.ofNat 32 (t / 1000)).toNat)).link := by
  rw [Part.lendOver, Part.unbelowAll_link]
  rfl

theorem Part.lendOver_fx (p : Part) (kind : MatrixEvent) (src : LendSource) (t : Nat) (f : FixtureIx) :
    (p.lendOver kind src t).fx f = (p.fx f).unbelow := by
  rw [Part.lendOver, Part.unbelowAll_fx, Part.modConv_fx, Part.post_fx, Part.modLend_fx]

theorem Part.endLend_link (p : Part) (kind : MatrixEvent) (src : LendSource) (t : Nat) :
    (p.endLend kind src t).link = (p.post (.matrixEvent kind src (p.uptime - BitVec.ofNat 32 (t / 1000)).toNat)).link := by
  obtain ⟨v, hv⟩ := (p.lendOver kind src t).tryBurst_conv
  rw [Part.endLend_eq, hv]
  exact p.lendOver_link kind src t

theorem Part.endLend_hasBack (p : Part) (kind : MatrixEvent) (src : LendSource) (t : Nat) :
    p.HasBack (p.endLend kind src t) p.lend.holdBlocked := by
  have hrest := p.lendOver_rest kind src t
  have hlend := p.lendOver_lend kind src t
  have hconv := p.lendOver_conv kind src t
  have hclock := p.lendOver_clock kind src t
  have hfx := p.lendOver_fx kind src t
  rw [Part.endLend_eq]
  generalize p.lendOver kind src t = r at *
  obtain ⟨v, hv⟩ := r.tryBurst_conv
  refine ⟨?_, fun f => ?_, fun hr hq => ?_, fun n hr hb => ?_, ?_⟩
  · rw [hv]
    exact hlend
  · rw [hv]
    exact hfx f
  · rw [Part.tryBurst_none (by rw [hconv]; exact hr) (fun f => by rw [hconv]; exact hq f), hconv]
  · have hgrant := Part.tryBurst_check (p := r) (by rw [hconv]; exact hb) (by rw [hlend]) (n := n)
      (by rw [hconv]; exact hr)
    rw [hconv, hclock] at hgrant
    exact hgrant
  · rw [hv]
    exact congrArg (fun q : Part => { q with conv := p.conv, lend := p.lend, link := p.link }) hrest

/-- The lend of a part that the hold line blocks on its way. -/
theorem Part.blockHold_eq (p : Part) (src : LendSource) :
    p.blockHold src = p.modLend fun l => { l with holdBlocked := l.holdBlocked || (src = LendSource.hold && l.holdLine) } := by
  unfold Part.blockHold
  split
  next h =>
    have hb : (p.lend.holdBlocked || (src = LendSource.hold && p.lend.holdLine)) = true := by simp [h.1, h.2]
    exact congrArg (fun b : Bool => p.modLend fun l => { l with holdBlocked := b }) hb.symm
  next h =>
    have hb : (p.lend.holdBlocked || (src = LendSource.hold && p.lend.holdLine)) = p.lend.holdBlocked := by
      rw [show (decide (src = LendSource.hold) && p.lend.holdLine) = false from Bool.eq_false_iff.mpr (by simpa using h), Bool.or_false]
    exact congrArg (fun b : Bool => p.modLend fun l => { l with holdBlocked := b }) hb.symm

theorem Part.HasBack.of_blockHold {q : Part} {blocked : Bool} (h : (p.blockHold src).HasBack q blocked) : p.HasBack q blocked := by
  rw [Part.blockHold_eq] at h
  exact ⟨h.lend, h.fx, h.unasked, h.reference, congrArg (fun r : Part => { r with lend := p.lend }) h.rest⟩

/-- The end of a lend that takes hold_blocked along (R140, R141). -/
theorem Part.endLend_blocked (p : Part) (kind : MatrixEvent) (src : LendSource) (t : Nat) :
    p.HasBack ((p.blockHold src).endLend kind src t) (p.lend.holdBlocked || (src = LendSource.hold && p.lend.holdLine)) ∧
      ((p.blockHold src).endLend kind src t).link =
        (p.post (.matrixEvent kind src (p.uptime - BitVec.ofNat 32 (t / 1000)).toNat)).link := by
  have hb := Part.endLend_hasBack (p.blockHold src) kind src t
  have hblocked : (p.blockHold src).lend.holdBlocked = (p.lend.holdBlocked || (src = LendSource.hold && p.lend.holdLine)) := by
    rw [Part.blockHold_eq]
    rfl
  rw [hblocked] at hb
  refine ⟨hb.of_blockHold, (Part.endLend_link _ _ _ _).trans ?_⟩
  rw [Part.blockHold_eq]
  rfl

theorem Part.HasBack.of_link {q : Part} {blocked : Bool} {k : Link} (h : ({ p with link := k } : Part).HasBack q blocked) (m : Link) :
    p.HasBack { q with link := m } blocked :=
  ⟨h.lend, h.fx, h.unasked, h.reference, congrArg (fun r : Part => { r with link := p.link }) h.rest⟩

theorem Part.HasBack.acknowledge {q : Part} {blocked : Bool} (h : p.HasBack q blocked) : q.acknowledgeLine = false := by
  rw [Part.acknowledgeLine, h.lend, Bool.and_false]

theorem Part.HasBack.steps {q : Part} {blocked : Bool} (h : p.HasBack q blocked) (f : FixtureIx) :
    (∀ i last since due, (p.fx f).inflight = some i → i.progress = .quiescent last since due →
      q.fx f = { p.fx f with inflight := some { i with progress := .quiescent last none due } }) ∧
    ((∀ i, (p.fx f).inflight = some i → ∀ last since due, i.progress ≠ .quiescent last since due) → q.fx f = p.fx f) :=
  ⟨fun _ _ _ _ hi hg => (h.fx f).trans (Fixture.unbelow_quiescent hi hg), fun hn => (h.fx f).trans (Fixture.unbelow_other hn)⟩

/-! ## RECLAIM_MATRIX, the hold line and the limit -/

theorem Part.reclaimMatrix_owned (h : p.lend.matrix = .owned) : p.reclaimMatrix [] = p.refuse .wrongState (le8 0) := by
  rw [Part.reclaimMatrix, Part.ofLength_of_eq (n := 0) (payload := []) rfl]
  simp only [h]
  rfl

theorem Part.reclaimMatrix_pending {limit : Nat} (h : p.lend.matrix = .pending src limit) :
    p.reclaimMatrix [] = ((p.blockHold src).modLend fun l => { l with matrix := .owned }).accept (le8 0) := by
  rw [Part.reclaimMatrix, Part.ofLength_of_eq (n := 0) (payload := []) rfl]
  simp only [h]
  rfl

theorem Part.reclaimMatrix_lent {limit : Nat} (h : p.lend.matrix = .lent src limit t) :
    p.reclaimMatrix [] = ((p.blockHold src).endLend .reclaimed src t).accept (le8 0) := by
  have hm : ((p.blockHold src).endLend .reclaimed src t).lend.matrix = .owned := by
    rw [((p.blockHold src).endLend_hasBack .reclaimed src t).lend]
  rw [Part.reclaimMatrix, Part.ofLength_of_eq (n := 0) (payload := []) rfl]
  simp only [h, hm]
  rfl

theorem Part.holdDrops_low (h : p.lend.holdLine = false) : p.holdDrops = p := if_neg (by rw [h]; decide)

theorem Part.holdDrops_held (h : p.lend.holdLine = true) (hp : p.powered = false) : p.holdDrops = p.withHold false :=
  (if_pos h).trans (if_pos (show (!p.powered) = true by rw [hp]; rfl))

theorem Part.holdDrops_blocked (h : p.lend.holdLine = true) (hp : p.powered = true) (hb : p.lend.holdBlocked = true) :
    p.holdDrops = (p.withHold false).modLend fun l => { l with holdBlocked := false } :=
  (if_pos h).trans ((if_neg (show ¬ (!p.powered) = true by rw [hp]; decide)).trans (if_pos hb))

/-- What a running part does about a hold line that drops unblocked. -/
def Part.holdDropped (p : Part) : Part :=
  match p.lend.matrix with
  | .lent .hold _ t => p.endLend .reclaimed .hold t
  | .pending .hold _ => p.modLend fun l => { l with matrix := .owned }
  | .owned => p
  | .pending .request _ => p
  | .lent .request _ _ => p

theorem Part.holdDrops_heard (h : p.lend.holdLine = true) (hp : p.powered = true) (hb : p.lend.holdBlocked = false) :
    p.holdDrops = (p.withHold false).holdDropped := by
  have hn : ¬ (p.withHold false).lend.holdBlocked = true := fun k => Bool.false_ne_true (hb.symm.trans k)
  exact (if_pos h).trans ((if_neg (show ¬ (!p.powered) = true by rw [hp]; decide)).trans (if_neg hn))

theorem Part.holdDropped_lent {limit : Nat} (h : p.lend.matrix = .lent .hold limit t) : p.holdDropped = p.endLend .reclaimed .hold t := by
  rw [Part.holdDropped, h]

theorem Part.holdDropped_pending {limit : Nat} (h : p.lend.matrix = .pending .hold limit) :
    p.holdDropped = p.modLend fun l => { l with matrix := .owned } := by
  rw [Part.holdDropped, h]

theorem Part.holdDropped_other {limit : Nat}
    (h : p.lend.matrix = .owned ∨ p.lend.matrix = .pending .request limit ∨ p.lend.matrix = .lent .request limit t) :
    p.holdDropped = p := by
  rcases h with h | h | h <;> rw [Part.holdDropped, h]

theorem Part.lendOverruns_lent {limit : Nat} (h : p.lend.matrix = .lent src limit t) :
    p.lendOverruns = ((p.advanceTo (t + limit * 1000)).blockHold src).endLend .overrun src t := by
  rw [Part.lendOverruns, h]

theorem Part.lendOverruns_none (h : ∀ src limit t, p.lend.matrix ≠ .lent src limit t) : p.lendOverruns = p := by
  unfold Part.lendOverruns
  split
  next src limit t k => exact absurd k (h src limit t)
  next => rfl

end

/-- Settles O45: a lend ends by request, by the line or by its limit, and the part has the matrix back. -/
theorem lendsEndAndGiveTheMatrixBack : Obligations.LendsEndAndGiveTheMatrixBack := by
  unfold Obligations.LendsEndAndGiveTheMatrixBack
  intro s tag l ended
  have given : ∀ {p q : Part} {kind src at_ blocked}, p.HasBack q blocked →
      q.link = (p.post (.matrixEvent kind src (p.uptime - BitVec.ofNat 32 (at_ / 1000)).toNat)).link → ended p q kind src at_ blocked :=
    fun h hlink => ⟨h.lend, h.acknowledge, hlink, h.steps, h.unasked, h.reference, h.rest⟩
  refine ⟨fun hl => ⟨fun hm => ?_, fun src limit hm => ?_, fun src limit at_ hm hroom => ?_⟩,
    fun h => State.atPin_next (q := s.part) (Part.holdDrops_low h), fun h => ?_, fun hp => ⟨fun src limit at_ hm => ?_, fun h => ?_⟩⟩
  · exact request_refused hl (by decide) (Part.reclaimMatrix_owned (p := s.part.asked 0x53 tag) hm)
  · refine request_answered hl (by decide)
      { s.part with lend := { l with matrix := .owned, holdBlocked := l.holdBlocked || (src = LendSource.hold && l.holdLine) } }
      ((Part.reclaimMatrix_pending (p := s.part.asked 0x53 tag) hm).trans ?_) hl.free hl.noRequest hl.noReply
    rw [Part.blockHold_eq]
    rfl
  · obtain ⟨hback, hlink⟩ := (s.part.asked 0x53 tag).endLend_blocked .reclaimed src at_
    refine ⟨_, exec_accepted (c := .reclaimMatrix tag []) (fr := { ty := 0x53, tag := tag, payload := [] }) rfl
      (show (0x53 : Byte).toNat < 0x70 by decide) hl (Part.reclaimMatrix_lent (p := s.part.asked 0x53 tag) hm), ?_, ?_⟩
    · have hpost := congrArg Part.link (Part.asked_post_room hroom 0x53 tag
        (.matrixEvent .reclaimed src (s.part.uptime - BitVec.ofNat 32 (at_ / 1000)).toNat))
      have hreplied := congrArg (fun k : Link => { k with tx := Transmitter.sending (.reply { ty := 0xD3, tag := tag, payload := [0, 0] }),
                                                          reply := none }) (hlink.trans hpost)
      refine hreplied.trans ?_
      simp only [Part.asked, Part.answered, Part.noticed, hl.noReply]
    · exact given (Part.HasBack.of_link hback _) rfl
  · intro down
    refine ⟨fun hp => State.atPin_next (Part.holdDrops_held h hp), fun hp hb => State.atPin_next (Part.holdDrops_blocked h hp hb),
      fun hp hb => ?_⟩
    have heard := Part.holdDrops_heard h hp hb
    refine ⟨fun limit at_ hm => ?_, fun limit hm => ?_, fun limit at_ hm => ?_⟩
    · have hback := Part.endLend_hasBack down .reclaimed .hold at_
      rw [show down.lend.holdBlocked = false from hb] at hback
      exact ⟨_, State.atPin_next (heard.trans (Part.holdDropped_lent (p := s.part.withHold false) hm)),
        given hback (Part.endLend_link down .reclaimed .hold at_)⟩
    · exact State.atPin_next (heard.trans (Part.holdDropped_pending (p := s.part.withHold false) hm))
    · exact State.atPin_next (heard.trans (Part.holdDropped_other (p := s.part.withHold false) hm))
  · obtain ⟨hback, hlink⟩ := (s.part.advanceTo (at_ + limit * 1000)).endLend_blocked .overrun src at_
    rw [Part.advanceTo_lend] at hback
    exact ⟨_, State.event_next hp (Part.lendOverruns_lent hm), given hback hlink⟩
  · exact State.event_next (q := s.part) hp (Part.lendOverruns_none h)

end Sys2Proof.Machine
end

section
/-! PROOFS. The converter's next burst (section 7.3). -/

namespace Sys2Proof.Machine

open Sys2Proof

/-! ## The fixture whose request comes first -/

/-- One fixture's turn in the search for the request that comes first. -/
def Converter.better (v : Converter) (best : Option (FixtureIx × ConvRequest)) (f : FixtureIx) : Option (FixtureIx × ConvRequest) :=
  match v.req f, best with
  | none, _ => best
  | some r, none => some (f, r)
  | some r, some b => if r.level < b.2.level then some (f, r) else best

section
variable {v : Converter} {f : FixtureIx} {r : ConvRequest} {l : List FixtureIx}

theorem Converter.choose_eq (v : Converter) : v.choose = allFixtures.foldl v.better none := rfl

theorem Converter.better_unasked (h : v.req f = none) (best : Option (FixtureIx × ConvRequest)) : v.better best f = best := by
  simp only [Converter.better, h]

theorem Converter.better_first (h : v.req f = some r) : v.better none f = some (f, r) := by
  simp only [Converter.better, h]

theorem Converter.better_asked (h : v.req f = some r) (b : FixtureIx × ConvRequest) :
    v.better (some b) f = if r.level < b.2.level then some (f, r) else some b := by
  simp only [Converter.better, h]

/-- A request stays chosen while no other has a lower level. -/
theorem Converter.better_stays (h : ∀ g ∈ l, ∀ q, v.req g = some q → r.level ≤ q.level) :
    l.foldl v.better (some (f, r)) = some (f, r) := by
  induction l with
  | nil => rfl
  | cons g l ih =>
    have hg : v.better (some (f, r)) g = some (f, r) := by
      cases hq : v.req g with
      | none => exact Converter.better_unasked hq _
      | some q => exact (Converter.better_asked hq _).trans (if_neg (not_lt.mpr (h g List.mem_cons_self q hq)))
    rw [List.foldl_cons, hg]
    exact ih fun k hk => h k (List.mem_cons_of_mem g hk)

/-- A request takes the place of the best one so far. -/
theorem Converter.better_takes (hr : v.req f = some r) {best : Option (FixtureIx × ConvRequest)}
    (hbest : ∀ b, best = some b → r.level < b.2.level) : v.better best f = some (f, r) := by
  cases best with
  | none => exact Converter.better_first hr
  | some b => exact (Converter.better_asked hr b).trans (if_pos (hbest b rfl))

theorem Converter.better_chooses (hl : l.Pairwise (· < ·)) (hf : f ∈ l) (hr : v.req f = some r)
    (hmin : ∀ g q, v.req g = some q → r.level < q.level ∨ (r.level = q.level ∧ f ≤ g)) {best : Option (FixtureIx × ConvRequest)}
    (hbest : ∀ b, best = some b → r.level < b.2.level) : l.foldl v.better best = some (f, r) := by
  induction l generalizing best with
  | nil => cases hf
  | cons g l ih =>
    obtain ⟨hg, hl⟩ := List.pairwise_cons.mp hl
    rw [List.foldl_cons]
    rcases List.mem_cons.mp hf with rfl | hf
    · rw [Converter.better_takes hr hbest]
      exact Converter.better_stays fun k _ q hq => (hmin k q hq).elim le_of_lt fun e => le_of_eq e.1
    · refine ih hl hf fun b hb => ?_
      cases hq : v.req g with
      | none =>
        rw [Converter.better_unasked hq] at hb
        exact hbest b hb
      | some q =>
        have hlt : r.level < q.level := (hmin g q hq).resolve_right fun e => absurd e.2 (not_le.mpr (hg f hf))
        cases best with
        | none =>
          cases (Converter.better_first hq).symm.trans hb
          exact hlt
        | some b' =>
          rw [Converter.better_asked hq] at hb
          split at hb
          · cases hb
            exact hlt
          · exact hbest b hb

/-- The request of the lowest level, at equal level of the lowest number, is chosen. -/
theorem Converter.choose_eq_some (hr : v.req f = some r)
    (hmin : ∀ g q, v.req g = some q → r.level < q.level ∨ (r.level = q.level ∧ f ≤ g)) : v.choose = some (f, r) :=
  Converter.better_chooses allFixtures_sorted (mem_allFixtures f) hr hmin fun _ h => nomatch h

end

/-! ## The grant to a fixture -/

/-- The settle that a kind of burst asks for of its own, the input being a new one (R132). -/
def ConvKind.ownSettle : ConvKind → SettlePlan
  | .quiescent => .fixed 200
  | .analog _ (.fixed n) => if n = 0 then .none else .fixed (100 * n)
  | .analog _ .ready => .ready

section
variable {p : Part} {f : FixtureIx} {r : ConvRequest}

/-- The range-settle flags after a grant. -/
def Part.flagsAfter (p : Part) (f : FixtureIx) (input : ConvInput) : BitVec 8 :=
  if input.isCurrent f then p.conv.rangeSettle &&& ~~~fixtureBit f else p.conv.rangeSettle

/-- The burst of a fixture in a stage. -/
def Part.burstOf (p : Part) (f : FixtureIx) (r : ConvRequest) (stage : Stage) : Burst :=
  { requester := .fixture f, input := p.inputOf f r.kind, count := min 8 r.remaining, stage := stage, orphan := false, broken := false }

theorem Part.takeSettle_eq (p : Part) (f : FixtureIx) (input : ConvInput) :
    p.takeSettle f input = { p with conv := { p.conv with rangeSettle := p.flagsAfter f input } } := by
  unfold Part.takeSettle Part.flagsAfter
  split <;> rfl

theorem Part.settlePlan_moved (h : (p.inputOf f r.kind).isCurrent f = true) (hs : p.conv.rangeSettle.getLsbD f.val = true) :
    p.settlePlan f r.kind = .fixed 1000 :=
  if_pos (by rw [h, hs]; rfl)

theorem Part.settlePlan_still (h : (p.inputOf f r.kind).isCurrent f = false ∨ p.conv.rangeSettle.getLsbD f.val = false) :
    p.settlePlan f r.kind = if p.conv.lastInput = some (p.inputOf f r.kind) then .none else r.kind.ownSettle :=
  if_neg (by rcases h with h | h <;> rw [h] <;> simp)

theorem Part.tryBurst_settles (hb : p.conv.burst = none) (hm : p.lend.matrix = .owned) (hr : p.conv.reference = none)
    (hc : p.conv.choose = some (f, r)) {us : Nat} (hs : p.settlePlan f r.kind = .fixed us) :
    p.tryBurst = { p with conv := { p.conv with
      rangeSettle := p.flagsAfter f (p.inputOf f r.kind), burst := some (p.burstOf f r (.settling (p.clock + us))) } } := by
  rw [Part.tryBurst_chosen hb hm hr hc, hs, Part.takeSettle_eq]
  rfl

theorem Part.tryBurst_waits (hb : p.conv.burst = none) (hm : p.lend.matrix = .owned) (hr : p.conv.reference = none)
    (hc : p.conv.choose = some (f, r)) (hs : p.settlePlan f r.kind = .ready) :
    p.tryBurst = { p with conv := { p.conv with
      rangeSettle := p.flagsAfter f (p.inputOf f r.kind), burst := some (p.burstOf f r (.waitReady p.clock)) } } := by
  rw [Part.tryBurst_chosen hb hm hr hc, hs, Part.takeSettle_eq]
  rfl

theorem Part.tryBurst_converts (hb : p.conv.burst = none) (hm : p.lend.matrix = .owned) (hr : p.conv.reference = none)
    (hc : p.conv.choose = some (f, r)) (hs : p.settlePlan f r.kind = .none) :
    p.tryBurst = { p with conv := { p.conv with
      rangeSettle := p.flagsAfter f (p.inputOf f r.kind)
      burst := some (p.burstOf f r (.converting (p.clock + 10 * min 8 r.remaining))), lastInput := some (p.inputOf f r.kind) } } := by
  rw [Part.tryBurst_chosen hb hm hr hc, hs, Part.takeSettle_eq]
  rfl

end

/-- Settles O46: the check first, then the fixture of the lowest level and number, with its case's settle. -/
theorem burstsAreGrantedInOrder : Obligations.BurstsAreGrantedInOrder := by
  unfold Obligations.BurstsAreGrantedInOrder
  intro s hp v now becomes
  have granted : ∀ {q}, s.part.tryBurst = q → exec .burstGrant s = .next (s.withPart q) := fun h =>
    (exec_burstGrant s hp).trans (by rw [h])
  refine ⟨fun h => granted (q := s.part) ?_, fun hb hm => ⟨fun n hr => granted (Part.tryBurst_reference hb hm hr),
      fun hr f r hf hmin => ?_⟩⟩
  · rcases h with h | h | ⟨hr, hn⟩
    · exact Part.tryBurst_busy (Option.isSome_iff_ne_none.mpr h)
    · exact Part.tryBurst_lent h
    · exact Part.tryBurst_none hr hn
  · intro input isCurrent flagged count burst flags settles converts
    have hc : v.choose = some (f, r) := Converter.choose_eq_some hf hmin
    have hcur : (s.part.inputOf f r.kind).isCurrent f = isCurrent := by
      obtain ⟨level, kind, remaining⟩ := r
      cases kind with
      | analog point settle =>
        show (decide (f = f) && decide (point = 9)) = decide (point = 9)
        rw [decide_eq_true rfl, Bool.true_and]
      | quiescent =>
        show (decide (f = f) && decide ((9 : Fin 12) = 9)) = true
        rw [decide_eq_true rfl, Bool.true_and, decide_eq_true rfl]
    have hflags : s.part.flagsAfter f (s.part.inputOf f r.kind) = flags := by
      unfold Part.flagsAfter
      rw [hcur]
      rfl
    have settled : ∀ {us}, s.part.settlePlan f r.kind = .fixed us → settles us := fun h => by
      refine granted ((Part.tryBurst_settles hb hm hr hc h).trans ?_)
      rw [hflags]
      rfl
    have converted : s.part.settlePlan f r.kind = .none → converts := fun h => by
      refine granted ((Part.tryBurst_converts hb hm hr hc h).trans ?_)
      rw [hflags]
      rfl
    have still : (isCurrent = false ∨ flagged = false) → _ := fun h =>
      Part.settlePlan_still (p := s.part) (f := f) (r := r) (h.imp hcur.trans id)
    refine ⟨fun h1 h2 => settled (Part.settlePlan_moved (hcur.trans h1) h2), fun h hl => converted ((still h).trans (if_pos hl)),
      fun h hl => ?_⟩
    have own : s.part.settlePlan f r.kind = r.kind.ownSettle := (still h).trans (if_neg hl)
    refine ⟨fun hk => settled (own.trans (congrArg ConvKind.ownSettle hk)),
      fun point n hk hn => settled (own.trans ((congrArg ConvKind.ownSettle hk).trans (if_neg hn))),
      fun point hk => converted (own.trans (congrArg ConvKind.ownSettle hk)), fun point hk => ?_⟩
    refine granted ((Part.tryBurst_waits hb hm hr hc (own.trans (congrArg ConvKind.ownSettle hk))).trans ?_)
    rw [hflags]
    rfl

end Sys2Proof.Machine
end

section
/-! PROOFS. Settles, the READY wait and the reference timer (sections 7.3 and 7.4). -/

namespace Sys2Proof.Machine

open Sys2Proof

section
variable {p : Part} {f : FixtureIx} {b : Burst} {i : InFlight}

theorem Part.settleOver_some {t : Nat} (hb : p.conv.burst = some b) (hs : b.stage = .settling t) :
    p.settleOver = (p.advanceTo t).startConverting := by
  have hat : p.conv.settleAt = some t := by simp only [Converter.settleAt, hb, hs]
  rw [Part.settleOver, hat]

theorem Part.settleOver_none (h : ∀ b, p.conv.burst = some b → ∀ t, b.stage ≠ .settling t) : p.settleOver = p := by
  have hat : p.conv.settleAt = none := by
    unfold Converter.settleAt
    split
    next b hb =>
      split
      next t hs => exact absurd hs (h b hb t)
      next => rfl
    next => rfl
  rw [Part.settleOver, hat]

theorem Part.startConverting_some (hb : p.conv.burst = some b) : p.startConverting = { p with conv := { p.conv with
    burst := some { b with stage := .converting (p.clock + 10 * b.count) }, lastInput := some b.input } } := by
  rw [Part.startConverting, Part.modConv]
  simp only [hb]

/-- A fixture with its sense-ready pin set. -/
def Part.withReady (f : FixtureIx) (ready : Bool) (p : Part) : Part :=
  p.modFx f fun x => { x with sense := { x.sense with ready := ready } }

theorem Part.senseReady_eq (p : Part) (f : FixtureIx) (ready : Bool) :
    p.senseReady f ready =
      if p.powered && (p.withReady f ready).readyMet f then (p.withReady f ready).startConverting else p.withReady f ready := rfl

theorem Converter.readyWait_some {v : Converter} {g : Nat} (hb : v.burst = some b) (hr : b.requester = .fixture f)
    (hs : b.stage = .waitReady g) : v.readyWait = some (f, g) := by
  simp only [Converter.readyWait, hb, hr, hs]

theorem Converter.readyWait_none {v : Converter}
    (h : ∀ b, v.burst = some b → (∀ g, b.stage ≠ .waitReady g) ∨ b.requester = .reference) : v.readyWait = none := by
  unfold Converter.readyWait
  split
  next b hb =>
    split
    next f g hr hs => exact (h b hb).elim (fun k => absurd hs (k g)) fun k => nomatch hr.symm.trans k
    next => rfl
  next => rfl

theorem Part.readyMet_iff {g : Nat} (h : p.conv.readyWait = some (f, g)) :
    p.readyMet f = true ↔ (p.fx f).sense.ready = true ∧ g + 100 ≤ p.clock := by
  simp [Part.readyMet, h]

theorem Part.withReady_notMet (p : Part) {ready : Bool} (h : ready = false ∨ p.conv.burst = none) :
    (p.withReady f ready).readyMet f = false := by
  unfold Part.readyMet
  split
  next k g hw =>
    rcases h with h | h
    · have hr : ((p.withReady f ready).fx f).sense.ready = ready := by rw [Part.withReady, Part.modFx_fx]
      rw [hr, h, Bool.and_false, Bool.false_and]
    · have hnone : (p.withReady f ready).conv.readyWait = none :=
        Converter.readyWait_none fun b hb => nomatch h.symm.trans hb
      cases hnone.symm.trans hw
  next => rfl

theorem Part.readyOver_none (h : p.conv.readyWait = none) : p.readyOver = p := by
  rw [Part.readyOver, h]

theorem Part.readyOver_some {g : Nat} (h : p.conv.readyWait = some (f, g)) :
    p.readyOver = if (p.fx f).sense.ready then p else (p.advanceTo (g + 50000)).readyFailed f := by
  rw [Part.readyOver, h]

/-- A converter whose burst has no requester any more. -/
def Converter.orphaned (v : Converter) : Converter := { v with burst := v.burst.map fun b => { b with orphan := true } }

theorem Part.withdraw_orphan (p : Part) (f : FixtureIx) :
    (p.modConv Converter.orphaned).withdraw f = { p with conv := p.conv.orphaned.setReq f none } := by
  refine Part.withdraw_other fun b hb => .inr ?_
  obtain ⟨b', _, rfl⟩ := Option.map_eq_some_iff.mp hb
  rfl

/-- With nothing left to grant a withdrawn request leaves the converter as it stands. -/
theorem Converter.setReq_unasked {v : Converter} (h : ∀ g, g ≠ f → v.req g = none) (g : FixtureIx) : (v.setReq f none).req g = none := by
  by_cases e : g = f
  · rw [e, Converter.req_setReq]
  · rw [Converter.req_setReq_ne v none e, h g e]

theorem Part.afterBurst_unasked (hm : p.lend.matrix = .owned) (hr : p.conv.reference = none) (hn : ∀ g, p.conv.req g = none) :
    p.afterBurst = p :=
  (Part.afterBurst_owned hm).trans (Part.tryBurst_none hr hn)

/-- An ANALOG step whose READY wait has failed, in a run that goes on with nothing. -/
theorem Part.readyFailed_quiet (hm : p.lend.matrix = .owned) (hr : p.conv.reference = none) (hn : ∀ h, h ≠ f → p.conv.req h = none)
    (ha : (p.fx f).run.state = .active) (hc : (p.fx f).run.policy = .cont) (hq : (p.fx f).queue = []) (hi : (p.fx f).inflight = some i)
    {pr : Probe} {taken : List Nat} (hg : i.progress = .analog pr taken) :
    p.readyFailed f = { p.modFx f fun x => x.withResult (x.recordFor i.step i.startedAt p.uptime (.incomplete .notReady)) with
      conv := { p.conv.setReq f none with burst := none, lastInput := none } } := by
  have hfin : (p.modConv Converter.orphaned).finish f (.incomplete .notReady) = _ :=
    (Part.finish_released (p := p.modConv Converter.orphaned) (f := f) hi hc ha hq _).trans
      (congrArg (fun q : Part => q.modFx f fun x => x.withResult (x.recordFor i.step i.startedAt p.uptime (.incomplete .notReady)))
        ((Part.releaseStep_analog (p := p.modConv Converter.orphaned) hi hg).trans (p.withdraw_orphan f)))
  have hfailed : p.readyFailed f = (((p.modConv Converter.orphaned).finish f (.incomplete .notReady)).dropBurst).afterBurst := rfl
  rw [hfailed, hfin]
  refine (Part.afterBurst_unasked ?_ ?_ ?_).trans rfl
  · exact hm
  · exact hr
  · exact Converter.setReq_unasked hn

/-- The reference timer's next expiry. -/
def Converter.referenceLater (v : Converter) : Converter := { v with refDue := v.refDue + 1000000 }

theorem Part.referenceDue_waits (h : p.conv.reference ≠ none) : p.referenceDue = p.modConv Converter.referenceLater :=
  if_neg fun k => h (Option.isNone_iff_eq_none.mp k)

theorem Part.referenceDue_raises (h : p.conv.reference = none) :
    p.referenceDue = { p with conv := { p.conv with refDue := p.conv.refDue + 1000000, reference := some 4 } : Part }.tryBurst :=
  if_pos (show p.conv.reference.isNone = true by rw [h]; rfl)

end

/-- Settles O47: a settle or a READY wait leads to conversion or fails, and the reference timer raises its check. -/
theorem settlesAndReferenceTimerAct : Obligations.SettlesAndReferenceTimerAct := by
  unfold Obligations.SettlesAndReferenceTimerAct
  refine ⟨fun s f => ?_, fun s hp => ?_⟩
  · intro v pin
    have changed : ∀ ready {q}, s.part.senseReady f ready = q → exec (.senseReadyChange f ready) s = .next (s.withPart q) :=
      fun ready q h => State.atPin_next (g := fun p => p.senseReady f ready) h
    refine ⟨fun ready h => changed ready ?_, fun hp => ⟨fun h => ?_, fun b t hb hs => ?_, fun b g hb hr hs => ?_, fun h => ?_⟩⟩
    · rw [Part.senseReady_eq]
      refine if_neg ?_
      rcases h with h | h
      · rw [h, Bool.false_and]
        decide
      · rw [Part.withReady_notMet s.part h, Bool.and_false]
        decide
    · exact State.event_next (q := s.part) hp (Part.settleOver_none h)
    · refine State.event_next hp ((Part.settleOver_some hb hs).trans ((Part.startConverting_some (b := b) ?_).trans ?_))
      · rw [Part.advanceTo_conv]
        exact hb
      · rw [Part.advanceTo_conv, ← Part.advanceTo_clock]
    · have hwait : v.readyWait = some (f, g) := Converter.readyWait_some hb hr hs
      have hmet : (s.part.withReady f true).readyMet f = true ↔ g + 100 ≤ s.part.clock := by
        rw [Part.readyMet_iff (p := s.part.withReady f true) hwait, Part.withReady, Part.modFx_fx]
        exact ⟨fun h => h.2, fun h => ⟨rfl, h⟩⟩
      refine ⟨fun h => changed true ((Part.senseReady_eq _ _ _).trans (if_neg fun k => ?_)), fun h =>
        changed true ((Part.senseReady_eq _ _ _).trans ((if_pos ?_).trans (Part.startConverting_some (p := s.part.withReady f true) hb))),
        fun h => ?_, fun h hm href hn ha hc hq i pr taken hi hg => ?_⟩
      · exact absurd (hmet.mp ((Bool.and_eq_true_iff.mp k).2)) (Nat.not_le_of_gt h)
      · exact Bool.and_eq_true_iff.mpr ⟨hp, hmet.mpr h⟩
      · exact State.event_next (q := s.part) hp ((Part.readyOver_some hwait).trans (if_pos h))
      · intro p
        refine State.event_next hp ((Part.readyOver_some hwait).trans ((if_neg (by rw [h]; decide)).trans ?_))
        have hquiet := Part.readyFailed_quiet (p := p) (f := f) (i := i) (by rw [Part.advanceTo_lend]; exact hm)
          (by rw [Part.advanceTo_conv]; exact href) (by rw [Part.advanceTo_conv]; exact hn) (by rw [Part.advanceTo_fx_run]; exact ha)
          (by rw [Part.advanceTo_fx_run]; exact hc) (by rw [Part.advanceTo_fx_queue]; exact hq)
          (by rw [Part.advanceTo_fx_inflight]; exact hi) hg
        rw [show p.conv = v from Part.advanceTo_conv _ _] at hquiet
        exact hquiet
    · exact State.event_next (q := s.part) hp (Part.readyOver_none (Converter.readyWait_none h))
  · intro v p
    have hconv : p.conv = v := Part.advanceTo_conv _ _
    have raised : v.reference = none → s.part.referenceOver =
        ({ p with conv := { v with refDue := v.refDue + 1000000, reference := some 4 } } : Part).tryBurst := fun h => by
      have hraise := Part.referenceDue_raises (p := p) (by rw [hconv]; exact h)
      rw [hconv] at hraise
      exact hraise
    refine ⟨fun h => State.event_next hp ?_, fun h => ⟨?_, fun hb hm => State.event_next hp ((raised h).trans ?_)⟩⟩
    · have hlater := Part.referenceDue_waits (p := p) (by rw [hconv]; exact h)
      rw [Part.modConv, hconv] at hlater
      exact hlater
    · exact (State.event_next hp (raised h)).trans (exec_burstGrant s
        (p := { p with conv := { v with refDue := v.refDue + 1000000, reference := some 4 } })
        ((Part.advanceTo_powered _ _).trans hp)).symm
    · exact Part.tryBurst_reference (p := { p with conv := { v with refDue := v.refDue + 1000000, reference := some 4 } }) hb
        ((congrArg Lend.matrix (Part.advanceTo_lend _ _)).trans hm) rfl

end Sys2Proof.Machine
end

section
/-! PROOFS. The end of a burst and what its codes do (sections 7.3, 7.4, 8.2 and 8.3). -/

namespace Sys2Proof.Machine

open Sys2Proof

/-- A converter with no burst. -/
def Converter.free (v : Converter) : Converter := { v with burst := none }

section
variable {p : Part} {f : FixtureIx} {b : Burst} {i : InFlight} {r : ConvRequest} {codes : List Nat} {cs : Codes}

theorem Part.burstOver_some {t : Nat} (hb : p.conv.burst = some b) (hs : b.stage = .converting t) :
    p.burstOver cs = (p.advanceTo t).endBurst b cs := by
  have hconv : p.conv.converting = some (b, t) := by simp only [Converter.converting, hb, hs]
  rw [Part.burstOver, hconv]

theorem Part.burstOver_none (h : ∀ b, p.conv.burst = some b → ∀ t, b.stage ≠ .converting t) : p.burstOver cs = p := by
  have hconv : p.conv.converting = none := by
    unfold Converter.converting
    split
    next b hb =>
      split
      next t hs => exact absurd hs (h b hb t)
      next => rfl
    next => rfl
  rw [Part.burstOver, hconv]

theorem Part.endBurst_orphan (h : b.orphan = true) : p.endBurst b cs = (p.modConv Converter.free).afterBurst := by
  simp only [Part.endBurst, h, if_true]
  rfl

theorem Part.endBurst_reference (h : b.orphan = false) (hr : b.requester = .reference) :
    p.endBurst b cs =
      (((p.modConv fun v => { v with reference := none }).judgeReference (b.codes cs)).modConv Converter.free).afterBurst := by
  simp only [Part.endBurst, h, hr, Bool.false_eq_true, if_false]
  rfl

theorem Part.endBurst_fixture (h : b.orphan = false) (hr : b.requester = .fixture f) :
    p.endBurst b cs = ((p.deliver f b.input (b.codes cs)).modConv Converter.free).afterBurst := by
  simp only [Part.endBurst, h, hr, Bool.false_eq_true, if_false]
  rfl

/-! ### The reference check (R135) -/

/-- A converter that has judged its reference check. -/
def Converter.judged (v : Converter) (mean : Nat) (inBand : Bool) : Converter :=
  { v with cref := if inBand then mean else v.cref, refFault := !inBand }

/-- The check is judged: a change of ref_fault is reported. -/
theorem Part.judgeReference_eq (p : Part) (codes : List Nat) (inBand : Bool)
    (h : inBand = true ↔ 2700 ≤ halfUp codes.sum 4 ∧ halfUp codes.sum 4 ≤ 3300) :
    p.judgeReference codes =
      if p.conv.refFault = inBand then
        (p.modConv fun v => v.judged (halfUp codes.sum 4) inBand).post
          (.refState (!inBand) (p.conv.judged (halfUp codes.sum 4) inBand).cref (halfUp codes.sum 4))
      else p.modConv fun v => v.judged (halfUp codes.sum 4) inBand := by
  unfold Part.judgeReference
  dsimp only
  cases inBand with
  | true =>
    rw [if_pos (h.mp rfl)]
    rfl
  | false =>
    rw [if_neg fun k => Bool.false_ne_true (h.mpr k)]
    cases hf : p.conv.refFault with
    | true =>
      have hsame : p.conv.judged (halfUp codes.sum 4) false = p.conv := by
        show ({ p.conv with refFault := true } : Converter) = p.conv
        rw [← hf]
      have hpart : (p.modConv fun v => v.judged (halfUp codes.sum 4) false) = p :=
        congrArg (fun v : Converter => ({ p with conv := v } : Part)) hsame
      rw [hpart]
      rfl
    | false =>
      rfl

theorem Part.post_modConv (p : Part) (n : Notice) (g : Converter → Converter) : (p.post n).modConv g = (p.modConv g).post n := rfl

/-- The end of a reference check's burst. -/
theorem Part.endBurst_check (ho : b.orphan = false) (hr : b.requester = .reference) {inBand : Bool}
    (h : inBand = true ↔ 2700 ≤ halfUp (b.codes cs).sum 4 ∧ halfUp (b.codes cs).sum 4 ≤ 3300) :
    p.endBurst b cs = (if p.conv.refFault = inBand then
        ({ p with conv := { p.conv.judged (halfUp (b.codes cs).sum 4) inBand with burst := none, reference := none } } : Part).post
          (.refState (!inBand) (p.conv.judged (halfUp (b.codes cs).sum 4) inBand).cref (halfUp (b.codes cs).sum 4))
      else { p with conv := { p.conv.judged (halfUp (b.codes cs).sum 4) inBand with burst := none, reference := none } }).afterBurst := by
  rw [Part.endBurst_reference ho hr, Part.judgeReference_eq _ _ inBand h, apply_ite (fun q : Part => q.modConv Converter.free)]
  rfl

/-! ### The codes of a fixture's burst (R130, R46) -/

theorem Converter.setReq_setReq (v : Converter) (f : FixtureIx) (a c : Option ConvRequest) : (v.setReq f a).setReq f c = v.setReq f c := by
  simp only [Converter.setReq, Vector.set_set]

/-- A burst that leaves samples to take. -/
theorem Part.deliver_more (hr : p.conv.req f = some r) (hi : (p.fx f).inflight = some i) {pr : Probe} {taken : List Nat}
    (hg : i.progress = .analog pr taken) (hn : codes.length < r.remaining) (input : ConvInput) :
    p.deliver f input codes =
      (p.modConv fun v => v.setReq f (some { r with remaining := r.remaining - codes.length })).setProgress f
        (.analog pr (taken ++ codes)) := by
  have hleft : r.remaining - codes.length ≠ 0 := by omega
  simp only [Part.deliver, hr, hi, hg, if_neg hleft]

/-- The last burst of an ANALOG measurement. -/
theorem Part.deliver_last (hr : p.conv.req f = some r) (hi : (p.fx f).inflight = some i) {pr : Probe} {taken : List Nat}
    (hg : i.progress = .analog pr taken) (hn : codes.length = r.remaining) {point : Fin 12} {settle : Settle} {dflt : Nat}
    {low high : Int} (hb : pr.body = .analog point settle dflt low high) (input : ConvInput) :
    p.deliver f input codes = (p.modConv fun v => v.setReq f none).finish f
      ((p.modConv fun v => v.setReq f none).analogEnd i pr point low high (taken ++ codes)) := by
  have hleft : r.remaining - codes.length = 0 := by omega
  simp only [Part.deliver, hr, hi, hg, hleft, if_true, hb]

/-- A step ends whose burst runs out at this moment. -/
theorem Part.finish_analog (hb : p.conv.burst = some b) (hr : b.requester = .fixture f) (ho : b.orphan = false)
    (hs : ∀ g, b.stage ≠ .waitReady g) (ha : (p.fx f).run.state = .active) (hc : (p.fx f).run.policy = .cont) (hq : (p.fx f).queue = [])
    (hi : (p.fx f).inflight = some i) {pr : Probe} {taken : List Nat} (hg : i.progress = .analog pr taken) (e : StepEnd) :
    p.finish f e = { p.modFx f fun x => x.withResult (x.recordFor i.step i.startedAt p.uptime e) with
      conv := { p.conv.setReq f none with burst := some { b with orphan := true } } } := by
  rw [Part.finish_released hi hc ha hq, Part.releaseStep_analog hi hg, Part.withdraw_running hb hr ho hs]
  rfl

theorem Part.analogEnd_measure {point : Fin 12} {low high : Int} {k : ProbeIx} {n : Nat} {lo hi : Option Int} {g ms : Nat}
    (h : i.step.body = .measure k n lo hi g ms) (pr : Probe) (all : List Nat) :
    p.analogEnd i pr point low high all =
      let judged := judgeAnalog p.conv.refFault all (analogValue all p.conv.cref (pointSpan point low high))
          (pointSpan point low high) lo hi g
      { verdict := judged.1, reason := judged.2.1, value := some judged.2.2, unit := some pr.unit, mean16 := some (mean16Of all)
        range := if point = 9 then some .high else none } := by
  simp only [Part.analogEnd, h]
  rfl

theorem Part.setProgress_some (hi : (p.fx f).inflight = some i) (g : Progress) :
    p.setProgress f g = p.modFx f fun x => { x with inflight := some { i with progress := g } } :=
  Part.modFx_congr (by rw [hi]; rfl)

/-- The end of a burst after which its measurement has samples to take. -/
theorem Part.endBurst_more (ho : b.orphan = false) (hr : b.requester = .fixture f) (hreq : p.conv.req f = some r)
    (hi : (p.fx f).inflight = some i) {pr : Probe} {taken : List Nat} (hg : i.progress = .analog pr taken)
    (hn : (b.codes cs).length < r.remaining) :
    p.endBurst b cs = { p.modFx f fun x => { x with inflight := some { i with progress := .analog pr (taken ++ b.codes cs) } } with
      conv := { p.conv.setReq f (some { r with remaining := r.remaining - (b.codes cs).length }) with burst := none } :
          Part }.afterBurst := by
  rw [Part.endBurst_fixture ho hr, Part.deliver_more hreq hi hg hn, Part.setProgress_some (p := p.modConv _) hi]
  rfl

theorem Part.analogEnd_setReq (p : Part) (f : FixtureIx) (i : InFlight) (pr : Probe) (point : Fin 12) (low high : Int)
    (all : List Nat) : (p.modConv fun v => v.setReq f none).analogEnd i pr point low high all = p.analogEnd i pr point low high all := rfl

/-- The end of the last burst of an ANALOG measurement, in a run that goes on with nothing. -/
theorem Part.endBurst_last (hb : p.conv.burst = some b) (ho : b.orphan = false) (hr : b.requester = .fixture f)
    (hs : ∀ g, b.stage ≠ .waitReady g) (hreq : p.conv.req f = some r) (ha : (p.fx f).run.state = .active)
    (hc : (p.fx f).run.policy = .cont) (hq : (p.fx f).queue = []) (hi : (p.fx f).inflight = some i) {pr : Probe} {taken : List Nat}
    (hg : i.progress = .analog pr taken) (hn : (b.codes cs).length = r.remaining) {point : Fin 12} {settle : Settle} {dflt : Nat}
    {low high : Int} (hbody : pr.body = .analog point settle dflt low high) :
    p.endBurst b cs = { p.modFx f fun x =>
        x.withResult (x.recordFor i.step i.startedAt p.uptime (p.analogEnd i pr point low high (taken ++ b.codes cs))) with
      conv := { p.conv.setReq f none with burst := none } : Part }.afterBurst := by
  rw [Part.endBurst_fixture ho hr, Part.deliver_last hreq hi hg hn hbody, Part.analogEnd_setReq]
  generalize p.analogEnd i pr point low high (taken ++ b.codes cs) = e
  rw [Part.finish_analog (p := p.modConv fun v => v.setReq f none) hb hr ho hs ha hc hq hi hg e]
  have hset := congrArg (fun v : Converter => ({ p.modFx f fun x => x.withResult (x.recordFor i.step i.startedAt p.uptime e) with
    conv := { v with burst := none } } : Part).afterBurst) (Converter.setReq_setReq p.conv f none none)
  exact hset

end

/-- Settles O48: the codes go to their requester, and then the next burst or a pending lend is granted. -/
theorem burstsReturnTheirCodes : Obligations.BurstsReturnTheirCodes := by
  unfold Obligations.BurstsReturnTheirCodes
  intro s codes hp v
  have ended : ∀ {q}, s.part.burstOver codes = q → exec (.burstEnd codes) s = .next (s.withPart q) := fun h =>
    State.event_next (g := fun p => p.burstOver codes) hp h
  refine ⟨fun h => ended (q := s.part) (Part.burstOver_none h), fun b t hb hs => ?_⟩
  intro p got
  have hgot : b.codes codes = got := rfl
  have hpp : p.powered = true := (Part.advanceTo_powered _ _).trans hp
  have hconv : p.conv = v := Part.advanceTo_conv _ _
  have hlend : p.lend = s.part.lend := Part.advanceTo_lend _ _
  have hover : s.part.burstOver codes = p.endBurst b codes := Part.burstOver_some hb hs
  have granted : ∀ {q : Part}, q.powered = true → q.lend.matrix = .owned → p.endBurst b codes = q.afterBurst →
      exec (.burstEnd codes) s = exec .burstGrant (s.withPart q) := fun hq hm h =>
    (ended (hover.trans (h.trans (Part.afterBurst_owned hm)))).trans (exec_burstGrant s hq).symm
  refine ⟨fun ho hm => ?_, fun ho src limit hm => ?_, fun ho hr => ?_, fun ho hm f r i pr taken hr hreq hi hg hlen => ?_⟩
  · refine granted (q := { p with conv := { v with burst := none } }) hpp ((congrArg Lend.matrix hlend).trans hm) ?_
    rw [Part.endBurst_orphan ho, ← hconv]
    rfl
  · refine ended (hover.trans ((Part.endBurst_orphan ho).trans ((Part.afterBurst_pending (src := src) (limit := limit) ?_).trans ?_)))
    · exact (congrArg Lend.matrix hlend).trans hm
    · rw [← hconv, ← hlend]
      rfl
  · intro mean inBand cref hm href hn q
    have hband : inBand = true ↔ 2700 ≤ mean ∧ mean ≤ 3300 := by
      show (decide (2700 ≤ mean) && decide (mean ≤ 3300)) = true ↔ _
      rw [Bool.and_eq_true, decide_eq_true_eq, decide_eq_true_eq]
    have hcheck := Part.endBurst_check (p := p) (b := b) (cs := codes) ho hr (inBand := inBand) (by rw [hgot]; exact hband)
    rw [hgot, hconv] at hcheck
    refine ended (hover.trans (hcheck.trans ?_))
    by_cases hf : v.refFault = inBand
    · rw [if_pos hf, if_pos hf]
      exact Part.afterBurst_unasked (p := q.post _) ((congrArg Lend.matrix hlend).trans hm) rfl hn
    · rw [if_neg hf, if_neg hf]
      exact Part.afterBurst_unasked (p := q) ((congrArg Lend.matrix hlend).trans hm) rfl hn
  · have hpr : p.conv.req f = some r := by rw [hconv]; exact hreq
    have hpi : (p.fx f).inflight = some i := by rw [Part.advanceTo_fx_inflight]; exact hi
    refine ⟨fun hlt => ?_, fun heq point settle dflt low high k n lo hi' g ms hbody hstep ha hc hq => ?_⟩
    · have hmore := Part.endBurst_more (cs := codes) ho hr hpr hpi hg (by rw [hgot, hlen]; exact hlt)
      rw [hgot, hlen, hconv] at hmore
      exact granted hpp ((congrArg Lend.matrix hlend).trans hm) hmore
    · intro all span judged
      have hspan : pointSpan point low high = span := by
        simp only [span]
        split
        · rfl
        · rfl
        · rfl
        · rfl
        next h8 h9 h10 h11 => rw [pointSpan, if_neg h8, if_neg h9, if_neg h10, if_neg h11]
      have hlast := Part.endBurst_last (p := p) (cs := codes) (by rw [hconv]; exact hb) ho hr (by rw [hs]; nofun) hpr
        (by rw [Part.advanceTo_fx_run]; exact ha) (by rw [Part.advanceTo_fx_run]; exact hc)
        (by rw [Part.advanceTo_fx_queue]; exact hq) hpi hg (by rw [hgot, hlen]; exact heq) hbody
      rw [hgot, Part.analogEnd_measure hstep, hspan, hconv] at hlast
      exact granted hpp ((congrArg Lend.matrix hlend).trans hm) hlast

end Sys2Proof.Machine
end

section
/-! PROOFS. QUIESCENT readings (sections 2.5, 3.6 and 8.3). -/

namespace Sys2Proof.Machine

open Sys2Proof

section
variable {p : Part} {f : FixtureIx} {b : Burst} {i : InFlight} {r : ConvRequest} {codes : List Nat} {cs : Codes}

theorem Part.tryBurst_fx (p : Part) (f : FixtureIx) : p.tryBurst.fx f = p.fx f := by
  obtain ⟨v, hv⟩ := p.tryBurst_conv
  rw [hv]
  rfl

/-- What follows a burst leaves every fixture alone. -/
theorem Part.afterBurst_fx (p : Part) (f : FixtureIx) : p.afterBurst.fx f = p.fx f := by
  unfold Part.afterBurst
  split
  next => rfl
  next => exact p.tryBurst_fx f

/-! ### A change of range -/

theorem Part.changeRange_fx (p : Part) (f : FixtureIx) (g : Range) :
    (p.changeRange f g).fx f = Fixture.unbelow { p.fx f with supply := { (p.fx f).supply with range := g } } := by
  rw [Part.changeRange_eq, Part.clearBelow_eq, Part.modFx_fx, Part.modConv_fx, Part.modSupply_fx]

theorem Part.changeRange_conv (p : Part) (f : FixtureIx) (g : Range) : (p.changeRange f g).conv = p.conv.rangeMoved f := by
  rw [Part.changeRange_eq, Part.clearBelow_eq]
  rfl

theorem Part.changeRange_lend (p : Part) (f : FixtureIx) (g : Range) : (p.changeRange f g).lend = p.lend := by
  rw [Part.changeRange_eq, Part.clearBelow_eq]
  rfl

/-- The range after a reading (R68, R69). -/
def Reading.moves (rd : Reading) (clipped : Bool) : Range :=
  if rd.range = .high ∧ rd.value < 8000 then .low else if rd.range = .low ∧ clipped = true then .high else rd.range

/-- A part whose fixture has taken a reading: its range may have moved, and then below_since is clear. -/
structure Part.HasRead (f : FixtureIx) (i : InFlight) (last : Option Reading) (since : Option (BitVec 32)) (due :
    Option Nat) (range g : Range)
    (p q : Part) : Prop where
  log : (q.fx f).log = (p.fx f).log
  moved : (q.fx f).supply.range = g
  inflight : (q.fx f).inflight = some { i with progress := .quiescent last (if g = range then since else none) due }
  lend : q.lend = p.lend
  reference : q.conv.reference = p.conv.reference
  requests : ∀ k, q.conv.req k = p.conv.req k

variable {last : Option Reading} {since : Option (BitVec 32)} {due : Option Nat}

theorem Part.changeRange_hasRead (hi : (p.fx f).inflight = some i) (hg : i.progress = .quiescent last since due) {range g : Range}
    (hne : g ≠ range) : p.HasRead f i last since due range g (p.changeRange f g) := by
  have hfx : (p.changeRange f g).fx f = _ := p.changeRange_fx f g
  refine ⟨by rw [hfx]; rfl, by rw [hfx]; rfl, ?_, p.changeRange_lend f g, by rw [Part.changeRange_conv]; rfl,
    fun k => by rw [Part.changeRange_conv]; rfl⟩
  rw [hfx, Fixture.unbelow_quiescent (x := { p.fx f with supply := { (p.fx f).supply with range := g } }) hi hg, if_neg hne]

theorem Part.HasRead.same (hi : (p.fx f).inflight = some i) (hg : i.progress = .quiescent last since due) {range : Range}
    (hr : (p.fx f).supply.range = range) : p.HasRead f i last since due range range p := by
  refine ⟨rfl, hr, ?_, rfl, rfl, fun k => rfl⟩
  rw [if_pos rfl, hi, ← hg]

theorem Part.rangeAfter_hasRead (hi : (p.fx f).inflight = some i) (hg : i.progress = .quiescent last since due)
    (hon : (p.fx f).supply.state = .on) {rd : Reading} (hr : (p.fx f).supply.range = rd.range) (clipped : Bool) :
    p.HasRead f i last since due rd.range (rd.moves clipped) (p.rangeAfter f rd clipped) := by
  unfold Part.rangeAfter Reading.moves
  dsimp only
  by_cases hlow : rd.range = .high ∧ rd.value < 8000
  · have hcond : rd.range = .high ∧ rd.value < 8000 ∧ (p.fx f).supply.state = .on := ⟨hlow.1, hlow.2, hon⟩
    rw [if_pos hcond, if_pos hlow]
    exact Part.changeRange_hasRead hi hg (by rw [hlow.1]; decide)
  · have hcond : ¬ (rd.range = .high ∧ rd.value < 8000 ∧ (p.fx f).supply.state = .on) := fun k => hlow ⟨k.1, k.2.1⟩
    rw [if_neg hcond, if_neg hlow]
    by_cases hhigh : rd.range = .low ∧ clipped = true
    · rw [if_pos hhigh, if_pos hhigh, Part.rangeHigh, if_pos (hr.trans hhigh.1)]
      exact Part.changeRange_hasRead hi hg (by rw [hhigh.1]; decide)
    · rw [if_neg hhigh, if_neg hhigh]
      exact Part.HasRead.same hi hg hr

/-! ### The judgement of a reading (R39, R40) -/

/-- The last reading of a burst is judged. -/
theorem Part.deliver_reading (hr : p.conv.req f = some r) (hi : (p.fx f).inflight = some i) (hg : i.progress = .quiescent last since due)
    (hn : codes.length = r.remaining) (pt : Fin 12) (range : Range) :
    p.deliver f (.point f pt range) codes = (p.modConv fun v => v.setReq f none).judgeReading f i since range codes := by
  have hleft : r.remaining - codes.length = 0 := by omega
  simp only [Part.deliver, hr, hi, hg, hleft, if_true]

/-- The reading has met its condition. -/
def Part.readingMet (p : Part) (since : Option (BitVec 32)) (threshold hold : Nat) (rd : Reading) (clipped : Bool) : Bool :=
  !clipped && decide (rd.value < threshold) && decide (hold ≤ (p.uptime - since.getD p.uptime).toNat)

section
variable {threshold hold ms : Nat} {range : Range}

theorem Part.judgeReading_fault (hb : i.step.body = .waitFor (.quiescent threshold hold) ms) (hf : p.conv.refFault = true) :
    p.judgeReading f i since range codes =
      p.finish f (.withReading .incomplete .ref (some (readingOf codes p.conv.cref range))) := by
  simp only [Part.judgeReading, hb, hf, if_true]

theorem Part.judgeReading_met (hb : i.step.body = .waitFor (.quiescent threshold hold) ms) (hf : p.conv.refFault = false)
    (hm : p.readingMet since threshold hold (readingOf codes p.conv.cref range) (clipHigh codes) = true) :
    p.judgeReading f i since range codes = p.finish f (.withReading .pass .none (some (readingOf codes p.conv.cref range))) := by
  unfold Part.readingMet at hm
  simp only [Part.judgeReading, hb, hf, hm, if_true, Bool.false_eq_true, if_false]

theorem Part.judgeReading_kept (hb : i.step.body = .waitFor (.quiescent threshold hold) ms) (hf : p.conv.refFault = false)
    (hm : p.readingMet since threshold hold (readingOf codes p.conv.cref range) (clipHigh codes) = false) :
    p.judgeReading f i since range codes =
      (p.setProgress f (.quiescent (some (readingOf codes p.conv.cref range))
        (if (!clipHigh codes && decide ((readingOf codes p.conv.cref range).value < threshold)) = true then some (since.getD p.uptime)
          else none) (some (p.clock / 1000 + 10)))).rangeAfter f (readingOf codes p.conv.cref range) (clipHigh codes) := by
  unfold Part.readingMet at hm
  simp only [Part.judgeReading, hb, hf, hm, Bool.false_eq_true, if_false]

end

/-- A QUIESCENT step that ends gives the LOW range back and leaves its record. -/
theorem Part.finish_quiescent (hi : (p.fx f).inflight = some i) (hg : i.progress = .quiescent last since due)
    (ha : (p.fx f).run.state = .active) (hc : (p.fx f).run.policy = .cont) (hq : (p.fx f).queue = []) (e : StepEnd) :
    ((p.finish f e).fx f).supply.range = .high ∧ ((p.finish f e).fx f).inflight = none ∧
      ((p.finish f e).fx f).log = (p.fx f).log ++ [(p.fx f).recordFor i.step i.startedAt p.uptime e] := by
  have hfx : (p.finish f e).fx f =
      ((p.releaseStep f).fx f).withResult (((p.releaseStep f).fx f).recordFor i.step i.startedAt p.uptime e) := by
    rw [Part.finish_released hi hc ha hq, Part.modFx_fx]
  have hrun := Part.releaseStep_run p f
  have hlog : ((p.releaseStep f).fx f).log = (p.fx f).log := by rw [(Part.releaseStep_released p f).fx_eq]
  have hrange : ((p.releaseStep f).fx f).supply.range = .high := by
    rw [Part.releaseStep_quiescent hi hg]
    exact Part.rangeHigh_range _ f
  rw [hfx]
  refine ⟨hrange, rfl, ?_⟩
  show ((p.releaseStep f).fx f).log ++ [_] = _
  rw [hlog, Fixture.recordFor, hrun]
  rfl

end

theorem currentSpan_eq (range : Range) : currentSpan range = (0, match range with | .high => 5000000 | .low => 10000) := by
  cases range <;> rfl

/-- Settles O49: a reading ends its step, or is kept and moves the range. -/
theorem quiescentReadingsAreJudged : Obligations.QuiescentReadingsAreJudged := by
  unfold Obligations.QuiescentReadingsAreJudged
  intro s codes f b t range r i last since due threshold hold ms hp hb hs ho hbroken hcount hr hinput hreq hrem hm href hn hi hg hbody
    ha hc hq hon hrange p got top clipped value reading below from_ met
  have hconv : p.conv = s.part.conv := Part.advanceTo_conv _ _
  have hlend : p.lend = s.part.lend := Part.advanceTo_lend _ _
  have hgot : b.codes codes = got := by
    rw [Burst.codes, hbroken, hcount]
    rfl
  have hlen : got.length = 4 := by
    show (List.map (fun c => c.toNat) (codes.toList.take 4)).length = 4
    rw [List.length_map, List.length_take, Vector.length_toList]
    rfl
  obtain ⟨P, hP⟩ : ∃ P, P = p.modConv fun v => v.setReq f none := ⟨_, rfl⟩
  have hPfx : P.fx f = p.fx f := by rw [hP]; rfl
  have hPi : (P.fx f).inflight = some i := by rw [hPfx, Part.advanceTo_fx_inflight]; exact hi
  have hPa : (P.fx f).run.state = .active := by rw [hPfx, Part.advanceTo_fx_run]; exact ha
  have hPc : (P.fx f).run.policy = .cont := by rw [hPfx, Part.advanceTo_fx_run]; exact hc
  have hPq : (P.fx f).queue = [] := by rw [hPfx, Part.advanceTo_fx_queue]; exact hq
  have hPlog : (P.fx f).log = (s.part.fx f).log := by rw [hPfx, Part.advanceTo_fx_log]
  have hPup : P.uptime = p.uptime := by rw [hP]; rfl
  have hPcref : P.conv.cref = s.part.conv.cref := by rw [hP, ← hconv]; rfl
  have hPfault : P.conv.refFault = s.part.conv.refFault := by rw [hP, ← hconv]; rfl
  have hreading : readingOf got P.conv.cref range = reading := by
    rw [hPcref, readingOf, currentSpan_eq]
    rfl
  have hdeliver : p.deliver f b.input got = P.judgeReading f i since range got := by
    rw [hinput, hP]
    exact Part.deliver_reading (p := p) (by rw [hconv]; exact hreq) (by rw [← hPfx]; exact hPi) hg (by rw [hlen, hrem]) 9 range
  have hover : ∀ {q}, P.judgeReading f i since range got = q →
      exec (.burstEnd codes) s = .next (s.withPart (q.modConv Converter.free).afterBurst) := fun h => by
    refine State.event_next (g := fun p => p.burstOver codes) hp ((Part.burstOver_some hb hs).trans ?_)
    rw [Part.endBurst_fixture ho hr, hgot, hdeliver, h]
  have hmet : P.readingMet since threshold hold reading (clipHigh got) = met := by
    rw [Part.readingMet, hPup]
    rfl
  refine ⟨fun reason verdict h => ?_, fun hf hmet' => ?_⟩
  · have hends : P.judgeReading f i since range got = P.finish f (.withReading verdict reason (some reading)) := by
      rcases h with ⟨hf, rfl, rfl⟩ | ⟨hf, hmet', rfl, rfl⟩
      · rw [Part.judgeReading_fault hbody (hPfault.trans hf), hreading]
      · rw [Part.judgeReading_met hbody (hPfault.trans hf) (by rw [hreading, hmet, hmet']), hreading]
    obtain ⟨hhigh, hnone, hlog⟩ := Part.finish_quiescent hPi hg hPa hPc hPq (.withReading verdict reason (some reading))
    refine ⟨_, hover hends, ?_⟩
    rw [Part.afterBurst_fx, Part.modConv_fx]
    refine ⟨hhigh, hnone, hlog.trans ?_⟩
    rw [hPlog, hPup, Fixture.recordFor, hPfx, Part.advanceTo_fx_run]
    rfl
  · obtain ⟨R, hR⟩ : ∃ R, R = P.setProgress f
        (.quiescent (some reading) (if below = true then some from_ else none) (some (p.clock / 1000 + 10))) := ⟨_, rfl⟩
    have hclock : P.clock = p.clock := by rw [hP]; rfl
    have hkept : P.judgeReading f i since range got = R.rangeAfter f reading clipped := by
      rw [Part.judgeReading_kept hbody (hPfault.trans hf) (by rw [hreading, hmet, hmet']), hreading, hPup, hclock, hR]
      rfl
    have hRfx : R.fx f = { P.fx f with inflight := some { i with
        progress := .quiescent (some reading) (if below = true then some from_ else none) (some (p.clock / 1000 + 10)) } } := by
      rw [hR, Part.setProgress_some hPi, Part.modFx_fx]
    have hread := Part.rangeAfter_hasRead (p := R) (f := f) (by rw [hRfx]) rfl
      (by rw [hRfx, hPfx, Part.advanceTo_fx_supply]; exact hon) (rd := reading)
      (by rw [hRfx, hPfx, Part.advanceTo_fx_supply]; exact hrange) clipped
    have hRrest : R.lend = p.lend ∧ R.conv = p.conv.setReq f none := by rw [hR, hP]; exact ⟨rfl, rfl⟩
    obtain ⟨hRlend, hRconv⟩ := hRrest
    have hquiet : ((R.rangeAfter f reading clipped).modConv Converter.free).afterBurst =
        (R.rangeAfter f reading clipped).modConv Converter.free := by
      refine Part.afterBurst_unasked ?_ ?_ fun k => ?_
      · exact (congrArg Lend.matrix (hread.lend.trans (hRlend.trans hlend))).trans hm
      · refine hread.reference.trans ?_
        rw [hRconv, hconv]
        exact href
      · refine (hread.requests k).trans ?_
        rw [hRconv, hconv]
        exact Converter.setReq_unasked hn k
    refine ⟨_, hover hkept, ?_⟩
    rw [hquiet, Part.modConv_fx]
    refine ⟨?_, hread.moved, ?_, rfl, (hread.requests f).trans ?_⟩
    · rw [hread.log, hRfx, ← hPlog]
    · rw [hread.inflight, hread.moved]
      have hsince : (if reading.moves clipped = reading.range then (if below = true then some from_ else none) else none) =
          if below = true ∧ reading.moves clipped = range then some from_ else none :=
        (ite_and (P := reading.moves clipped = range) (Q := below = true) (some from_) none).symm.trans (if_congr and_comm rfl rfl)
      rw [hsince]
    · rw [hRconv]
      exact Converter.req_setReq _ _ _

end Sys2Proof.Machine
end

section
/-! PROOFS. The buttons of the consoles (section 9.4). -/

namespace Sys2Proof.Machine

open Sys2Proof

/-! ## A console's two buttons -/

/-- A console with both buttons set: the named one and the other. -/
def Console.putButtons (k : Button) (m o : ButtonState) (x : Console) : Console :=
  match k with
  | .pass => { x with pass := m, fail := o }
  | .fail => { x with fail := m, pass := o }

section
variable {x : Console} {k : Button} {r : Press} {now : Nat} {e : Entry}

theorem Console.setButton_eq (x : Console) (k : Button) (v : ButtonState) :
    x.setButton k v = x.putButtons k v (x.button (otherButton k)) := by
  cases k <;> rfl

theorem Console.putButtons_entries (x : Console) (k : Button) (m o : ButtonState) : (x.putButtons k m o).entries = x.entries := by
  cases k <;> rfl

/-- The press that a going-down opens. -/
def Console.opened (x : Console) (ph : PressPhase) (now : Nat) : Press :=
  { phase := ph, bound := x.entries.head?.map (·.id), longTime := x.longTime, downAt := now }

theorem Console.press_alone (h : (x.button (otherButton k)).down = false) :
    x.press k now = x.putButtons k { down := true, press := some (x.opened .qualifying now) } (x.button (otherButton k)) := by
  have hup : ¬ (x.button (otherButton k)).down = true := by rw [h]; decide
  simp only [Console.press, if_neg hup]
  cases k <;> rfl

theorem Console.press_chord (h : (x.button (otherButton k)).down = true) (hr : (x.button (otherButton k)).press = some r) :
    x.press k now = x.putButtons k { down := true, press := some (x.opened .cancelled now) }
      { down := true, press := some r.chorded } := by
  unfold Console.press
  simp only [h, hr, if_true, Option.map_some]
  cases k <;> rfl

theorem Console.pressIn_eq_some {ph : PressPhase} (h : (x.button k).press = some r) (hp : r.phase = ph) : x.pressIn k ph = some r := by
  simp only [Console.pressIn, h, hp, if_true]

theorem Console.pressIn_none {ph : PressPhase} (h : ∀ r, (x.button k).press = some r → r.phase ≠ ph) : x.pressIn k ph = none := by
  unfold Console.pressIn
  split
  next r hr => exact if_neg (h r hr)
  next => rfl

theorem Console.boundEntry_gone (h : ∀ e ∈ x.entries, r.bound ≠ some e.id) : x.boundEntry r = none := by
  unfold Console.boundEntry
  split
  next => rfl
  next n hn => exact List.find?_eq_none.mpr fun e he k => h e he (hn.trans (congrArg some (of_decide_eq_true k).symm))

/-- With distinct identities a press finds the entry it is bound to. -/
theorem Console.boundEntry_stands (hnodup : (x.entries.map (·.id)).Nodup) (he : e ∈ x.entries) (hb : r.bound = some e.id) :
    x.boundEntry r = some e := by
  rw [Console.boundEntry, hb]
  obtain ⟨g, hg⟩ := Option.isSome_iff_exists.mp (List.find?_isSome.mpr ⟨e, he, decide_eq_true rfl⟩ :
    (x.entries.find? fun g => decide (g.id = e.id)).isSome)
  have hid : g.id = e.id := of_decide_eq_true (List.find?_some (p := fun g : Entry => decide (g.id = e.id)) hg)
  have hsame : g = e := List.inj_on_of_nodup_map hnodup (List.mem_of_find?_eq_some hg) he hid
  rw [← hsame] at hg ⊢
  exact hg

end

/-! ## Going down, 60 ms, going up, the long time -/

/-- Both buttons of a console set. -/
def Part.putButtons (c : ConsoleId) (k : Button) (m o : ButtonState) (p : Part) : Part := p.modCon c (Console.putButtons k m o)

section
variable {p : Part} {c : ConsoleId} {k : Button} {r : Press} {e : Entry} {i : InFlight}

theorem Part.setButton_eq (p : Part) (c : ConsoleId) (k : Button) (v : ButtonState) :
    (p.modCon c fun x => x.setButton k v) = p.putButtons c k v ((p.con c).button (otherButton k)) :=
  Part.modCon_congr (Console.setButton_eq _ _ _)

theorem Part.putButtons_entries (p : Part) (c : ConsoleId) (k : Button) (m o : ButtonState) :
    ((p.putButtons c k m o).con c).entries = (p.con c).entries := by
  rw [Part.putButtons, Part.modCon_con, Console.putButtons_entries]

theorem Part.buttonGoesDown_down (h : ((p.con c).button k).down = true) : p.buttonGoesDown c k = p := if_pos h

theorem Part.buttonGoesDown_held (h : ((p.con c).button k).down = false) (hp : p.powered = false) :
    p.buttonGoesDown c k = p.putButtons c k { down := true, press := none } ((p.con c).button (otherButton k)) := by
  refine (if_neg (by rw [h]; decide)).trans (Part.modCon_congr ?_)
  rw [hp]
  exact Console.setButton_eq _ _ _

theorem Part.buttonGoesDown_alone (h : ((p.con c).button k).down = false) (hp : p.powered = true)
    (ho : ((p.con c).button (otherButton k)).down = false) :
    p.buttonGoesDown c k =
      p.putButtons c k { down := true, press := some ((p.con c).opened .qualifying p.clock) } ((p.con c).button (otherButton k)) := by
  refine (if_neg (by rw [h]; decide)).trans (Part.modCon_congr ?_)
  rw [hp]
  exact Console.press_alone ho

theorem Part.buttonGoesDown_chord (h : ((p.con c).button k).down = false) (hp : p.powered = true)
    (ho : ((p.con c).button (otherButton k)).down = true) (hr : ((p.con c).button (otherButton k)).press = some r) :
    p.buttonGoesDown c k = p.putButtons c k { down := true, press := some ((p.con c).opened .cancelled p.clock) }
      { down := true, press := some r.chorded } := by
  refine (if_neg (by rw [h]; decide)).trans (Part.modCon_congr ?_)
  rw [hp]
  exact Console.press_chord ho hr

theorem Part.pressReaches60ms_none (h : ∀ r, ((p.con c).button k).press = some r → r.phase ≠ .qualifying) :
    p.pressReaches60ms c k = p := by
  rw [Part.pressReaches60ms, Console.pressIn_none h]

theorem Part.pressReaches60ms_some (h : ((p.con c).button k).press = some r) (hp : r.phase = .qualifying) :
    p.pressReaches60ms c k = (p.advanceTo (r.downAt + 60000)).putButtons c k
      { (p.con c).button k with press := some { r with phase := .held } } ((p.con c).button (otherButton k)) := by
  rw [Part.pressReaches60ms, Console.pressIn_eq_some h hp]
  refine Part.modCon_congr ?_
  rw [Part.advanceTo_con]
  exact Console.setButton_eq _ _ _

/-- A console whose button has gone up. -/
def Part.buttonUp (c : ConsoleId) (k : Button) (p : Part) : Part := p.modCon c fun x => x.setButton k {}

theorem Part.buttonUp_entries (p : Part) (c : ConsoleId) (k : Button) : ((p.buttonUp c k).con c).entries = (p.con c).entries := by
  rw [Part.buttonUp, Part.setButton_eq, Part.putButtons_entries]

theorem Console.boundEntry_congr {x y : Console} (h : x.entries = y.entries) (r : Press) : x.boundEntry r = y.boundEntry r := by
  rw [Console.boundEntry, h, Console.boundEntry]

theorem Part.buttonGoesUp_up (h : ((p.con c).button k).down = false) : p.buttonGoesUp c k = p := if_neg (by rw [h]; decide)

theorem Part.buttonGoesUp_ignored (h : ((p.con c).button k).down = true)
    (hr : ∀ r, ((p.con c).button k).press = some r → r.phase ≠ .held) : p.buttonGoesUp c k = p.buttonUp c k := by
  refine (if_pos h).trans ?_
  rw [Console.pressIn_none hr]
  rfl

theorem Part.buttonGoesUp_gone (h : ((p.con c).button k).down = true) (hr : ((p.con c).button k).press = some r) (hp : r.phase = .held)
    (hb : (p.con c).boundEntry r = none) : p.buttonGoesUp c k = p.buttonUp c k := by
  have hb' : ((p.buttonUp c k).con c).boundEntry r = none := (Console.boundEntry_congr (p.buttonUp_entries c k) r).trans hb
  refine (if_pos h).trans ?_
  rw [Console.pressIn_eq_some hr hp]
  rw [Part.buttonUp] at hb' ⊢
  simp only [hb']

theorem Part.buttonGoesUp_short (h : ((p.con c).button k).down = true) (hr : ((p.con c).button k).press = some r) (hp : r.phase = .held)
    (hb : (p.con c).boundEntry r = some e) : p.buttonGoesUp c k = (p.buttonUp c k).shortPress c k e := by
  have hb' : ((p.buttonUp c k).con c).boundEntry r = some e := (Console.boundEntry_congr (p.buttonUp_entries c k) r).trans hb
  refine (if_pos h).trans ?_
  rw [Console.pressIn_eq_some hr hp]
  rw [Part.buttonUp] at hb' ⊢
  simp only [hb']

/-- A console whose press has become a long one, at its long time. -/
def Part.longHeld (c : ConsoleId) (k : Button) (r : Press) (p : Part) : Part :=
  (p.advanceTo (r.downAt + r.longTime * 1000000)).modCon c fun x =>
    x.setButton k { x.button k with press := some { r with phase := .long } }

theorem Part.longHeld_eq (p : Part) (c : ConsoleId) (k : Button) (r : Press) :
    p.longHeld c k r = (p.advanceTo (r.downAt + r.longTime * 1000000)).putButtons c k
      { (p.con c).button k with press := some { r with phase := .long } } ((p.con c).button (otherButton k)) := by
  refine Part.modCon_congr ?_
  rw [Part.advanceTo_con]
  exact Console.setButton_eq _ _ _

theorem Part.longHeld_entries (p : Part) (c : ConsoleId) (k : Button) (r : Press) :
    ((p.longHeld c k r).con c).entries = (p.con c).entries := by
  rw [Part.longHeld_eq, Part.putButtons_entries, Part.advanceTo_con]

theorem Part.pressReachesLongTime_none (h : ∀ r, ((p.con c).button k).press = some r → r.phase ≠ .held) :
    p.pressReachesLongTime c k = p := by
  rw [Part.pressReachesLongTime, Console.pressIn_none h]

theorem Part.pressReachesLongTime_gone (hr : ((p.con c).button k).press = some r) (hp : r.phase = .held)
    (hb : (p.con c).boundEntry r = none) : p.pressReachesLongTime c k = p.longHeld c k r := by
  have hb' : ((p.longHeld c k r).con c).boundEntry r = none := (Console.boundEntry_congr (p.longHeld_entries c k r) r).trans hb
  rw [Part.pressReachesLongTime, Console.pressIn_eq_some hr hp]
  rw [Part.longHeld] at hb' ⊢
  simp only [hb']

theorem Part.pressReachesLongTime_acts (hr : ((p.con c).button k).press = some r) (hp : r.phase = .held)
    (hb : (p.con c).boundEntry r = some e) : p.pressReachesLongTime c k = (p.longHeld c k r).longPress c k e := by
  have hb' : ((p.longHeld c k r).con c).boundEntry r = some e := (Console.boundEntry_congr (p.longHeld_entries c k r) r).trans hb
  rw [Part.pressReachesLongTime, Console.pressIn_eq_some hr hp]
  rw [Part.longHeld] at hb' ⊢
  simp only [hb']

end

/-! ## What a press does to its entry (R165, R166) -/

theorem Entry.isSafety_iff (e : Entry) : e.isSafety = true ↔ e.cls = .safety := by
  unfold Entry.isSafety
  cases e.cls <;> simp

theorem Entry.isSafety_false {e : Entry} (h : e.isSafety = false) : ∃ kind tag runId, e.cls = .normal kind tag runId := by
  unfold Entry.isSafety at h
  cases hc : e.cls with
  | safety => simp [hc] at h
  | normal kind tag runId => exact ⟨kind, tag, runId, rfl⟩

/-- How a step ends whose entry a short press answers. -/
def pressAnswer : Button → StepEnd
  | .pass => { verdict := .pass, reason := .none }
  | .fail => { verdict := .fail, reason := .operator }

section
variable {p : Part} {c : ConsoleId} {k : Button} {e : Entry} {i : InFlight}

theorem Part.shortPress_dismisses (h : e.isSafety = true) : p.shortPress c .pass e = p.modCon c fun x => x.drop e.id := by
  simp only [Part.shortPress, (Entry.isSafety_iff e).mp h]

theorem Part.shortPress_refused (h : e.isSafety = true ∨ ∃ tag runId, e.cls = .normal .ack tag runId) : p.shortPress c .fail e = p := by
  rcases h with h | ⟨tag, runId, h⟩
  · simp only [Part.shortPress, (Entry.isSafety_iff e).mp h]
  · simp only [Part.shortPress, h]

theorem Part.shortPress_answers {kind : PromptKind} {tag : BitVec 16} {runId : BitVec 32} (h : e.cls = .normal kind tag runId)
    (hk : k = .pass ∨ kind = .confirm) : p.shortPress c k e = p.finish e.owner (pressAnswer k) := by
  cases k with
  | pass =>
    simp only [Part.shortPress, h]
    rfl
  | fail =>
    obtain rfl : kind = .confirm := hk.resolve_left (by decide)
    simp only [Part.shortPress, h]
    rfl

theorem Part.longPress_safety (h : e.isSafety = true) : p.longPress c .pass e = p := by
  simp only [Part.longPress, (Entry.isSafety_iff e).mp h]

theorem Part.longPress_defers (h : e.isSafety = false) : p.longPress c .pass e = p.modCon c fun x => x.defer e := by
  obtain ⟨kind, tag, runId, h⟩ := Entry.isSafety_false h
  simp only [Part.longPress, h]

theorem Part.longPress_rejects (p : Part) (c : ConsoleId) (e : Entry) : p.longPress c .fail e = p.haltRequest e.owner .operatorReject := by
  simp only [Part.longPress]

/-- A PROMPT step ends with its entry, in a run that goes on with nothing. -/
theorem Part.finish_prompt {f : FixtureIx} (hi : (p.fx f).inflight = some i) {n : Nat} (hg : i.progress = .prompt n)
    (ha : (p.fx f).run.state = .active) (hc : (p.fx f).run.policy = .cont) (hq : (p.fx f).queue = []) (v : StepEnd) :
    p.finish f v = (p.modFx f fun x => x.withResult (x.recordFor i.step i.startedAt p.uptime v)).modCon (consoleFor f) fun x =>
      { x with entries := x.entries.filter fun g => !(g.owner = f && !g.isSafety) } := by
  rw [Part.finish_released hi hc ha hq, Part.releaseStep_prompt hi hg, Part.removeNormal, Part.modCon_modFx]

end

/-- Settles O50: the phases of a press, and what a held one does to its entry. -/
theorem pressesActOnTheirEntry : Obligations.PressesActOnTheirEntry := by
  unfold Obligations.PressesActOnTheirEntry
  intro s c k x mine other put up
  have hmine : x.button k = mine := by cases k <;> rfl
  have hother : x.button (otherButton k) = other := by cases k <;> rfl
  have hput : ∀ m o p, Part.putButtons c k m o p = put m o p := fun m o p => by cases k <;> rfl
  have hup : s.part.buttonUp c k = up s.part := by
    rw [Part.buttonUp, Part.setButton_eq, hput, hother]
  have goesDown : ∀ {q}, s.part.buttonGoesDown c k = q → exec (.buttonDown c k) s = .next (s.withPart q) := fun h =>
    State.atPin_next (g := fun p => p.buttonGoesDown c k) h
  have goesUp : ∀ {q}, s.part.buttonGoesUp c k = q → exec (.buttonUp c k) s = .next (s.withPart q) := fun h =>
    State.atPin_next (g := fun p => p.buttonGoesUp c k) h
  refine ⟨fun h => goesDown (q := s.part) (Part.buttonGoesDown_down (hmine ▸ h)), fun h hp => goesDown ?_, fun h hp ho => goesDown ?_,
    fun h hp ho r hr => goesDown ?_, fun h => goesUp (q := s.part) (Part.buttonGoesUp_up (hmine ▸ h)), fun h hr => goesUp ?_,
    fun hp => ⟨fun h => ?_, fun h => ?_, fun r hr => ⟨fun hph => ?_, fun hph => ?_⟩⟩⟩
  · rw [Part.buttonGoesDown_held (hmine ▸ h) hp, hput, hother]
  · rw [Part.buttonGoesDown_alone (hmine ▸ h) hp (hother ▸ ho), hput, hother]
    rfl
  · rw [Part.buttonGoesDown_chord (hmine ▸ h) hp (hother ▸ ho) (hother ▸ hr), hput]
    rfl
  · rw [Part.buttonGoesUp_ignored (hmine ▸ h) (hmine ▸ hr), hup]
  · exact State.event_next (g := fun p => p.pressReaches60ms c k) (q := s.part) hp (Part.pressReaches60ms_none (hmine ▸ h))
  · exact State.event_next (g := fun p => p.pressReachesLongTime c k) (q := s.part) hp (Part.pressReachesLongTime_none (hmine ▸ h))
  · refine State.event_next (g := fun p => p.pressReaches60ms c k) hp ((Part.pressReaches60ms_some (hmine ▸ hr) hph).trans ?_)
    rw [hput, hother, hmine]
  · intro long later gone
    have hlater : s.part.longHeld c k r = later := by rw [Part.longHeld_eq, hput, hother, hmine]
    have reaches : ∀ {q}, s.part.pressReachesLongTime c k = q → exec (.longTimeReached c k) s = .next (s.withPart q) := fun h =>
      State.event_next (g := fun p => p.pressReachesLongTime c k) hp h
    refine ⟨fun h => reaches ?_, fun h hd => goesUp ?_, fun hnodup e he hb hown => ?_⟩
    · rw [Part.pressReachesLongTime_gone (hmine ▸ hr) hph (Console.boundEntry_gone h), hlater]
    · rw [Part.buttonGoesUp_gone (hmine ▸ hd) (hmine ▸ hr) hph (Console.boundEntry_gone h), hup]
    · have hbound := Console.boundEntry_stands hnodup he hb
      have hlong : s.part.pressReachesLongTime c k = later.longPress c k e := by
        rw [Part.pressReachesLongTime_acts (hmine ▸ hr) hph hbound, hlater]
      have hrun : (later.fx e.owner).run = (s.part.fx e.owner).run := by
        rw [Part.modCon_fx, Part.advanceTo_fx_run]
      refine ⟨fun hk hs => ?_, fun hk hs => ?_, fun hk ho => ?_, fun hk ho => ?_, fun hd => ?_⟩
      · subst hk
        exact reaches (hlong.trans (Part.longPress_safety hs))
      · subst hk
        exact reaches (hlong.trans (Part.longPress_defers hs))
      · subst hk
        exact reaches (hlong.trans ((Part.longPress_rejects _ _ _).trans (Part.haltRequest_closed (by rw [hrun]; exact ho) _)))
      · subst hk
        have hopen : (later.fx e.owner).run.isOpen = true := by rw [hrun]; exact ho
        exact ⟨_, reaches (hlong.trans ((Part.longPress_rejects _ _ _).trans (Part.haltRequest_open hopen _))),
          Part.enterHalting_halted hopen .operatorReject⟩
      · have hshort : s.part.buttonGoesUp c k = (up s.part).shortPress c k e := by
          rw [Part.buttonGoesUp_short (hmine ▸ hd) (hmine ▸ hr) hph hbound, hup]
        have hfx : (up s.part).fx e.owner = s.part.fx e.owner := Part.modCon_fx _ _ _ _
        refine ⟨fun hk hs => ?_, fun hk hn => ?_, fun kind tag runId hcls hk ha hc hq i n hi hg => ?_⟩
        · subst hk
          exact goesUp (hshort.trans (Part.shortPress_dismisses hs))
        · subst hk
          exact goesUp (hshort.trans (Part.shortPress_refused hn))
        · refine goesUp (hshort.trans ((Part.shortPress_answers hcls hk).trans ((Part.finish_prompt (i := i) (by rw [hfx]; exact hi) hg
            (by rw [hfx]; exact ha) (by rw [hfx]; exact hc) (by rw [hfx]; exact hq) _).trans ?_)))
          rw [hown]
          cases k <;> cases c <;> rfl

end Sys2Proof.Machine
end

section
/-! PROOFS. The STOP switch and the flash clock (sections 9.5 and 9.6). -/

namespace Sys2Proof.Machine

open Sys2Proof

/-! ## Raw changes -/

theorem Part.modCon_fixed {p : Part} {c : ConsoleId} {g : Console → Console} (h : g (p.con c) = p.con c) : p.modCon c g = p := by
  cases c with
  | a => exact congrArg (fun x => { p with consoleA := x }) h
  | b => exact congrArg (fun x => { p with consoleB := x }) h

theorem Part.stopRawChange_same {p : Part} {c : ConsoleId} {pressed : Bool} (h : (p.con c).stopRaw = pressed) :
    p.stopRawChange c pressed = p := by
  exact Part.modCon_fixed (if_pos h)

theorem Part.stopRawChange_prompt {p : Part} {c : ConsoleId} {pressed : Bool} (h : (p.con c).stopRaw ≠ pressed)
    (hd : p.powered = false ∨ ∀ t, (p.con c).stopDue = some t → p.clock < t) :
    p.stopRawChange c pressed = p.modCon c fun x =>
      { x with stopRaw := pressed, stopAfter := none
               stopDue := if p.powered = true ∧ pressed ≠ x.stopLevel then some (p.clock + 20000) else none } := by
  refine Part.modCon_congr ((if_neg h).trans ?_)
  cases hp : p.powered with
  | false => rfl
  | true =>
    have hrun := redebounce_running (raw := pressed) (level := (p.con c).stopLevel)
      (hd.resolve_left fun k => Bool.false_ne_true (k.symm.trans hp))
    simp only [if_true, hrun, debounce, true_and, ne_eq, ite_not]

theorem Part.stopRawChange_late {p : Part} {c : ConsoleId} {pressed : Bool} (h : (p.con c).stopRaw ≠ pressed) (hp : p.powered = true)
    (hd : ∃ t, (p.con c).stopDue = some t ∧ t ≤ p.clock) :
    p.stopRawChange c pressed = p.modCon c fun x =>
      { x with stopRaw := pressed, stopAfter := if pressed = x.stopLevel then some (p.clock + 20000) else none } := by
  refine Part.modCon_congr ((if_neg h).trans ?_)
  have hafter : debounce pressed (!(p.con c).stopLevel) p.clock =
      if pressed = (p.con c).stopLevel then some (p.clock + 20000) else none := by
    cases pressed <;> cases (p.con c).stopLevel <;> rfl
  simp only [hp, if_true, redebounce_over hd, hafter]

/-! ## What a pressed switch makes of a fixture (R167) -/

section
variable {p q : Part} {f : FixtureIx} {c : ConsoleId}

theorem Run.isOpen_of_ended {u : Run} (h : u.state = .ended ∨ u.state = .halting) : u.isOpen = false := by
  rcases h with h | h <;> rw [Run.isOpen, h] <;> rfl

theorem Part.Halted.closed {r : HaltReason} (h : p.Halted f r q) : (q.fx f).run.isOpen = false := by
  refine Run.isOpen_of_ended ?_
  rw [h.state]
  split
  · exact .inl rfl
  · exact .inr rfl

theorem Part.Halted.dead {r : HaltReason} (h : p.Halted f r q) : (q.fx f).supply.live = false := by
  cases hl : (p.fx f).supply.live with
  | false =>
    rw [← hl, ← h.supplyKept hl]
    rfl
  | true =>
    rw [h.supplyCut hl, Supply.live]
    cases (p.fx f).supply.below500 <;> rfl

theorem Part.cutSupply_dead (h : (p.fx f).supply.live = false) : p.cutSupply f = p := if_neg (by rw [h]; decide)

/-- A supply cut at a fixture with no open run. -/
structure Part.CutAt (f : FixtureIx) (p q : Part) : Prop where
  closed : (q.fx f).run.isOpen = false
  dead : (q.fx f).supply.live = false
  others : ∀ g, g ≠ f → q.fx g = p.fx g
  con : ∀ k, q.con k = p.con k
  rest : { q with fixtures := p.fixtures, conv := p.conv, link := p.link } = p

theorem Part.cutSupply_cut (h : (p.fx f).run.isOpen = false) : p.CutAt f (p.cutSupply f) := by
  cases hl : (p.fx f).supply.live with
  | false =>
    rw [Part.cutSupply_dead hl]
    exact ⟨h, hl, fun _ _ => rfl, fun _ => rfl, rfl⟩
  | true =>
    have e : p.cutSupply f = (p.disconnect f .none).endRun f := if_pos hl
    have hd : p.CutAt f (p.disconnect f .none) := by
      refine ⟨?_, ?_, fun g hg => p.disconnect_fx_ne .none hg, fun k => ?_, ?_⟩
      · rw [p.disconnect_run f .none]
        exact h
      · rw [Part.disconnect_fx]
        exact Supply.cutWith_notLive _ _ _
      · rw [Part.disconnect_whole]
        rfl
      · rw [Part.disconnect_whole]
        rfl
    rw [e]
    generalize p.disconnect f .none = q at hd
    unfold Part.endRun
    split
    · refine ⟨?_, ?_, fun g hg => ?_, fun k => hd.con k, hd.rest⟩
      · rw [Part.postRunState, Part.post_fx, Part.modFx_fx]
        exact Run.isOpen_of_ended (.inl rfl)
      · rw [Part.postRunState, Part.post_fx, Part.modFx_fx]
        exact hd.dead
      · rw [Part.postRunState, Part.post_fx, Part.modFx_fx_ne _ _ hg]
        exact hd.others g hg
    · exact hd

/-- What the STOP switch has made of a fixture that it reaches. -/
structure Fixture.Stopped (x y : Fixture) : Prop where
  closed : y.run.isOpen = false
  dead : y.supply.live = false
  halted : x.run.isOpen = true → y.run.haltReason = .operatorStop ∧ y.run.verdict = x.run.verdict.max .incomplete ∧ y.inflight = none ∧
    y.queue = [] ∧ y.outs = { pins := x.outs.pins }

/-- The NORMAL entry of a fixture in the list, whose run the switch halts. -/
def Part.stopsEntry (p : Part) (l : List FixtureIx) (e : Entry) : Bool :=
  !e.isSafety && decide (e.owner ∈ l) && p.isFitted e.owner && (p.fx e.owner).run.isOpen

/-- The STOP switch of a console has reached the fitted fixtures of a list. -/
structure Part.StoppedBy (c : ConsoleId) (l : List FixtureIx) (p q : Part) : Prop where
  hit : ∀ f ∈ l, p.isFitted f = true → (p.fx f).Stopped (q.fx f)
  spared : ∀ f, (f ∉ l ∨ p.isFitted f = false) → q.fx f = p.fx f
  console : q.con c = { p.con c with entries := (p.con c).entries.filter fun e => !p.stopsEntry l e }
  consoles : ∀ d, d ≠ c → q.con d = p.con d
  rest : { q with fixtures := p.fixtures, channels := p.channels, conv := p.conv, lend := p.lend, consoleA := p.consoleA
                  consoleB := p.consoleB, link := p.link } = p

theorem Console.filter_all {x : Console} {g : Entry → Bool} (h : ∀ e ∈ x.entries, g e = true) :
    ({ x with entries := x.entries.filter g } : Console) = x := by
  rw [List.filter_eq_self.mpr h]

theorem Part.stopFixture_unfitted (h : p.isFitted f = false) : p.stopFixture f = p := if_neg (by rw [h]; decide)

theorem Part.stopFixture_idle (ho : (p.fx f).run.isOpen = false) (hl : (p.fx f).supply.live = false) : p.stopFixture f = p := by
  unfold Part.stopFixture
  rw [Part.haltRequest_closed ho, Part.cutSupply_dead hl, ite_self]

/-- A fixture without an open run loses its supply alone. -/
theorem Part.stopFixture_closed (hf : p.isFitted f = true) (ho : (p.fx f).run.isOpen = false) : p.CutAt f (p.stopFixture f) := by
  rw [Part.stopFixture, if_pos hf, Part.haltRequest_closed ho]
  exact Part.cutSupply_cut ho

/-- An open run halts, and its supply goes with it. -/
theorem Part.stopFixture_open (hf : p.isFitted f = true) (ho : (p.fx f).run.isOpen = true) :
    p.Halted f .operatorStop (p.stopFixture f) := by
  have h := Part.enterHalting_halted ho .operatorStop
  rw [Part.stopFixture, if_pos hf, Part.haltRequest_open ho, Part.cutSupply_dead h.dead]
  exact h

theorem Part.Halted.stopped (h : p.Halted f .operatorStop q) : (p.fx f).Stopped (q.fx f) :=
  ⟨h.closed, h.dead, fun _ => ⟨h.reason, h.verdict.trans (if_neg fun k => nomatch k.1), h.steps.2.1, h.steps.1, h.outputs.1⟩⟩

theorem Part.stopFixture_stops (hc : consoleFor f = c) : p.StoppedBy c [f] (p.stopFixture f) := by
  have hstops : ∀ e, p.stopsEntry [f] e = (decide (e.owner = f) && !e.isSafety && (p.isFitted f && (p.fx f).run.isOpen)) := fun e => by
    by_cases he : e.owner = f
    · simp [Part.stopsEntry, he, Bool.and_assoc]
    · simp [Part.stopsEntry, he]
  have hkept : (p.isFitted f && (p.fx f).run.isOpen) = false → ∀ x : Console,
      ({ x with entries := x.entries.filter fun e => !p.stopsEntry [f] e } : Console) = x := fun h x =>
    Console.filter_all fun e _ => by rw [hstops, h, Bool.and_false]; rfl
  cases hf : p.isFitted f with
  | false =>
    rw [Part.stopFixture_unfitted hf]
    refine ⟨fun g hg hfit => ?_, fun _ _ => rfl, (hkept (by rw [hf]; rfl) _).symm, fun _ _ => rfl, rfl⟩
    rw [List.mem_singleton.mp hg, hf] at hfit
    cases hfit
  | true =>
    cases ho : (p.fx f).run.isOpen with
    | false =>
      have h := Part.stopFixture_closed hf ho
      refine ⟨fun g hg _ => ?_, fun g hg => h.others g fun k => ?_, ?_, fun d _ => h.con d, ?_⟩
      · rw [List.mem_singleton.mp hg]
        exact ⟨h.closed, h.dead, fun k => nomatch ho.symm.trans k⟩
      · exact hg.elim (fun e => e (List.mem_singleton.mpr k)) fun e => nomatch (k ▸ hf).symm.trans e
      · rw [h.con c, hkept (by rw [hf, ho]; rfl)]
      · exact congrArg (fun r : Part => { r with channels := p.channels, lend := p.lend, consoleA := p.consoleA, consoleB := p.consoleB })
          h.rest
    | true =>
      have h := Part.stopFixture_open hf ho
      refine ⟨fun g hg _ => ?_, fun g hg => h.others g fun k => ?_, ?_, fun d hd => h.console.2 d (by rw [hc]; exact hd), h.rest⟩
      · rw [List.mem_singleton.mp hg]
        exact h.stopped
      · exact hg.elim (fun e => e (List.mem_singleton.mpr k)) fun e => nomatch (k ▸ hf).symm.trans e
      · have hcon := h.console.1
        rw [hc] at hcon
        rw [hcon]
        refine congrArg (fun es => ({ p.con c with entries := es } : Console)) (List.filter_congr fun e _ => ?_)
        rw [hstops, hf, ho, Bool.and_true, Bool.and_true]

theorem Part.StoppedBy.nil (p : Part) (c : ConsoleId) : p.StoppedBy c [] p := by
  refine ⟨fun f hf => (nomatch hf), fun _ _ => rfl, ?_, fun _ _ => rfl, rfl⟩
  refine (Console.filter_all fun e _ => ?_).symm
  simp [Part.stopsEntry]

/-- The switch reaches one fixture after another. -/
theorem Part.StoppedBy.cons {r : Part} {l : List FixtureIx} (h : p.StoppedBy c [f] q) (k : q.StoppedBy c l r) (hf : f ∉ l) :
    p.StoppedBy c (f :: l) r := by
  have hfit : ∀ g, q.isFitted g = p.isFitted g := fun g => by rw [← h.rest]; rfl
  have hsame : ∀ g, g ≠ f → q.fx g = p.fx g := fun g hg => h.spared g (.inl fun e => hg (List.mem_singleton.mp e))
  refine ⟨fun g hg hgf => ?_, fun g hg => ?_, ?_, fun d hd => (k.consoles d hd).trans (h.consoles d hd), ?_⟩
  · by_cases e : g = f
    · rw [e, k.spared f (.inl hf)]
      exact h.hit f (List.mem_singleton.mpr rfl) (e ▸ hgf)
    · have hgl : g ∈ l := (List.mem_cons.mp hg).resolve_left e
      rw [← hsame g e]
      exact k.hit g hgl (by rw [hfit, hgf])
  · refine (k.spared g ?_).trans (h.spared g ?_)
    · exact hg.imp (fun e m => e (List.mem_cons_of_mem f m)) fun e => by rw [hfit, e]
    · exact hg.imp (fun e m => e (by rw [List.mem_singleton.mp m]; exact List.mem_cons_self)) id
  · rw [k.console, h.console]
    refine congrArg (fun es => ({ p.con c with entries := es } : Console)) ((List.filter_filter ..).trans (List.filter_congr fun e _ => ?_))
    by_cases he : e.owner = f
    · simp [Part.stopsEntry, he, hf]
    · simp [Part.stopsEntry, he, hfit, hsame e.owner he]
  · have e := k.rest
    rw [← h.rest, ← e]

theorem Part.each_stopFixture {l : List FixtureIx} (hl : l.Nodup) (hc : ∀ f ∈ l, consoleFor f = c) (p : Part) :
    p.StoppedBy c l (p.each l fun f q => q.stopFixture f) := by
  induction l generalizing p with
  | nil => exact .nil p c
  | cons f l ih =>
    obtain ⟨hf, hl⟩ := List.nodup_cons.mp hl
    exact (Part.stopFixture_stops (hc f List.mem_cons_self)).cons (ih hl (fun g hg => hc g (List.mem_cons_of_mem f hg)) _) hf

theorem Part.each_unmoved {l : List FixtureIx} {h : FixtureIx → Part → Part} (hp : ∀ f ∈ l, h f p = p) : p.each l h = p := by
  induction l with
  | nil => rfl
  | cons f l ih =>
    rw [show p.each (f :: l) h = (h f p).each l h from rfl, hp f List.mem_cons_self]
    exact ih fun g hg => hp g (List.mem_cons_of_mem f hg)

theorem mem_servedBy_iff {f : FixtureIx} {c : ConsoleId} : f ∈ servedBy c ↔ consoleFor f = c := by
  cases c <;> revert f <;> decide

theorem nodup_servedBy (c : ConsoleId) : (servedBy c).Nodup := by cases c <;> decide

/-- A console whose STOP debounce has ended. -/
def Part.stopTaken (c : ConsoleId) (t : Nat) (p : Part) : Part :=
  (p.advanceTo t).modCon c fun x =>
    { x with stopLevel := settledLevel x.stopRaw x.stopAfter, stopDue := x.stopAfter, stopAfter := none }

theorem Part.stopTaken_con (p : Part) (c : ConsoleId) (t : Nat) : (p.stopTaken c t).con c = { p.con c with
    stopLevel := settledLevel (p.con c).stopRaw (p.con c).stopAfter, stopDue := (p.con c).stopAfter, stopAfter := none } := by
  rw [Part.stopTaken, Part.modCon_con, Part.advanceTo_con]

theorem Part.stopSettled_none (h : (p.con c).stopDue = none) : p.stopSettled c = p := by rw [Part.stopSettled, h]

theorem Part.stopSettled_some {t : Nat} (h : (p.con c).stopDue = some t) :
    p.stopSettled c = (if settledLevel (p.con c).stopRaw (p.con c).stopAfter then
      (p.stopTaken c t).each (servedBy c) fun f q => q.stopFixture f else p.stopTaken c t).post
        (.consoleStop c (settledLevel (p.con c).stopRaw (p.con c).stopAfter)) := by
  have hlevel : ((p.stopTaken c t).con c).stopLevel = settledLevel (p.con c).stopRaw (p.con c).stopAfter := by rw [Part.stopTaken_con]
  rw [Part.stopSettled, h, ← hlevel]
  rfl

theorem Part.lit_slow (p : Part) : p.lit .slowFlash = true ↔ p.flash.phase.val < 4 := decide_eq_true_iff

theorem Part.lit_fast (p : Part) : p.lit .fastFlash = true ↔ p.flash.phase.val % 2 = 0 := decide_eq_true_iff

end

/-- Settles O51: the switch is debounced, halts the fitted fixtures of its console, and the flash clock turns. -/
theorem stopSwitchHaltsItsFixtures : Obligations.StopSwitchHaltsItsFixtures := by
  unfold Obligations.StopSwitchHaltsItsFixtures
  intro s c pressed x
  have raw : ∀ {q}, s.part.stopRawChange c pressed = q → exec (.stopSwitchRawChange c pressed) s = .next (s.withPart q) := fun h =>
    State.atPin_next (g := fun p => p.stopRawChange c pressed) h
  have settles : s.part.powered = true → ∀ {q}, s.part.stopSettled c = q → exec (.consoleStop c) s = .next (s.withPart q) := fun hp _ h =>
    State.event_next (g := fun p => p.stopSettled c) hp h
  refine ⟨fun h => raw (q := s.part) (Part.stopRawChange_same h), fun h hd => raw (Part.stopRawChange_prompt h hd),
    fun h hp hd => raw (Part.stopRawChange_late h hp hd), fun hp => ⟨fun h => settles hp (q := s.part) (Part.stopSettled_none h),
      fun t ht => ?_, ?_, s.part.lit_slow, s.part.lit_fast⟩⟩
  · intro p level settled
    have hsome := Part.stopSettled_some ht
    have htaken : s.part.stopTaken c t = settled := Part.modCon_congr (by rw [Part.advanceTo_con]; rfl)
    have hlevel : settledLevel (s.part.con c).stopRaw (s.part.con c).stopAfter = level := rfl
    rw [htaken, hlevel] at hsome
    refine ⟨fun hl => settles hp (hsome.trans (by rw [hl]; rfl)), fun hl => ?_⟩
    intro hit
    rw [hl] at hsome
    have hfx : ∀ f, settled.fx f = p.fx f := fun f => Part.modCon_fx _ _ _ _
    have hfit : ∀ f, settled.isFitted f = s.part.isFitted f := fun f => by
      cases c <;> exact Part.advanceTo_isFitted s.part t f
    refine ⟨fun hidle => settles hp (hsome.trans ?_), settled.each (servedBy c) fun f q => q.stopFixture f, settles hp hsome, ?_⟩
    · rw [if_pos rfl, Part.each_unmoved fun f hf => ?_]
      cases hff : settled.isFitted f with
      | false => exact Part.stopFixture_unfitted hff
      | true =>
        obtain ⟨ho, hlive⟩ := hidle f ⟨mem_servedBy_iff.mp hf, by rw [← hfit]; exact hff⟩
        exact Part.stopFixture_idle (by rw [hfx, Part.advanceTo_fx_run]; exact ho) (by rw [hfx, Part.advanceTo_fx_supply]; exact hlive)
    · have h := Part.each_stopFixture (c := c) (nodup_servedBy c) (fun f hf => mem_servedBy_iff.mp hf) settled
      generalize (settled.each (servedBy c) fun f q => q.stopFixture f) = q at h
      refine ⟨fun f hf => ?_, fun f hf => ?_, ?_, fun d hd => ?_, ?_⟩
      · have hs := h.hit f (mem_servedBy_iff.mpr hf.1) (by rw [hfit]; exact hf.2)
        rw [hfx] at hs
        refine ⟨hs.closed, hs.dead, fun ho => ?_⟩
        have hh := hs.halted (by rw [Part.advanceTo_fx_run]; exact ho)
        rw [Part.advanceTo_fx_run, Part.advanceTo_fx_outs] at hh
        exact hh
      · refine (h.spared f ?_).trans (hfx f)
        by_cases hc : f ∈ servedBy c
        · exact .inr (by rw [hfit]; exact Bool.eq_false_iff.mpr fun k => hf ⟨mem_servedBy_iff.mp hc, k⟩)
        · exact .inl hc
      · rw [h.console, ← htaken, Part.stopTaken_con, hlevel, hl]
        refine congrArg (fun es => ({ x with stopLevel := true, stopDue := x.stopAfter, stopAfter := none, entries := es } : Console))
          (List.filter_congr fun e _ => ?_)
        rw [Part.stopsEntry, htaken, hfit, hfx, Part.advanceTo_fx_run, decide_eq_decide.mpr mem_servedBy_iff]
      · exact (h.consoles d hd).trans (Part.modCon_con_ne p _ hd)
      · have hrest := congrArg (fun r : Part => { r with consoleA := p.consoleA, consoleB := p.consoleB }) h.rest
        cases c <;> exact hrest
  · refine State.event_next hp ?_
    rw [Part.flashTurns, Part.advanceTo_flash]

end Sys2Proof.Machine
end

section
/-! PROOFS. The report of CONSOLE_STATUS (section 11.7). -/

namespace Sys2Proof.Machine

open Sys2Proof

/-! ## Fields behind an offset -/

theorem byteAt_drop (l : List Byte) (k i : Nat) : byteAt (l.drop k) i = byteAt l (k + i) := by
  simp [byteAt, List.getElem?_drop]

theorem u16At_drop (l : List Byte) (k i : Nat) : u16At (l.drop k) i = u16At l (k + i) := by
  rw [u16At, u16At, byteAt_drop, byteAt_drop, Nat.add_assoc]

theorem u32At_drop (l : List Byte) (k i : Nat) : u32At (l.drop k) i = u32At l (k + i) := by
  rw [u32At, u32At, u16At_drop, u16At_drop, Nat.add_assoc]

theorem drop_append_of_length {a b : List Byte} {n : Nat} (h : a.length = n) (k : Nat) : (a ++ b).drop (n + k) = b.drop k := by
  rw [← List.drop_drop, List.drop_left' h]

section pieces

variable {α : Type} {f : α → List Byte} {size : Nat}

theorem length_flatMap_of_length (h : ∀ a, (f a).length = size) (l : List α) : (l.flatMap f).length = size * l.length := by
  rw [List.flatMap_def, length_flatten_of_length_eq (by simpa using fun a _ => h a), List.length_map]

/-- Past `n` pieces of one size stands the piece of item `n`, and what follows it. -/
theorem drop_flatMap_of_length (h : ∀ a, (f a).length = size) {l : List α} {n : Nat} {a : α} (ha : l[n]? = some a) :
    (l.flatMap f).drop (size * n) = f a ++ (l.drop (n + 1)).flatMap f := by
  induction l generalizing n with
  | nil => simp at ha
  | cons b l ih =>
    cases n with
    | zero =>
      obtain rfl : b = a := by simpa using ha
      rfl
    | succ n =>
      rw [List.flatMap_cons, Nat.mul_succ, Nat.add_comm, drop_append_of_length (h b), ih (by simpa using ha)]
      rfl

end pieces

/-- A text of two lines, each filled out with blanks, is the text filled out with blanks. -/
theorem padTo_two_lines {n : Nat} (fill : Byte) {text : List Byte} (h : text.length ≤ n + n) :
    padTo n fill text ++ padTo n fill (text.drop n) = text ++ List.replicate (n + n - text.length) fill := by
  simp only [padTo, List.length_drop]
  rcases Nat.le_total text.length n with hle | hle
  · rw [List.take_of_length_le hle, List.drop_of_length_le hle, List.take_nil, List.nil_append, List.append_assoc,
      List.replicate_append_replicate]
    congr 2
    omega
  · rw [Nat.sub_eq_zero_of_le hle, List.replicate_zero, List.append_nil,
      List.take_of_length_le (l := text.drop n) (by rw [List.length_drop]; omega), ← List.append_assoc, List.take_append_drop]
    congr 2
    omega

/-! ## An entry slot -/

@[simp] theorem PromptKind.code_lt (k : PromptKind) : k.code < 256 := by cases k <;> decide
@[simp] theorem FixtureIx.val_lt_byte (f : FixtureIx) : f.val < 256 := Nat.lt_trans f.isLt (by decide)

theorem Entry.classCode_eq (e : Entry) : e.classCode = if e.isSafety then 0 else 1 := rfl

/-- The bytes of an entry slot between its class and its text. -/
def Entry.middle (e : Entry) : List Byte :=
  match e.cls with
  | .safety => le8 0 ++ le8 e.text.length ++ le16 0 ++ le32 0
  | .normal kind tag runId => le8 kind.code ++ le8 e.text.length ++ le16 tag.toNat ++ le32 runId.toNat

theorem Entry.encode_eq (e : Entry) :
    e.encode = le8 e.owner.val ++ (le8 e.classCode ++ (e.middle ++ padTo 40 0 e.text)) := by
  simp only [Entry.encode, List.append_assoc]
  rfl

theorem Entry.middle_safety {e : Entry} (h : e.cls = .safety) :
    e.middle = le8 0 ++ (le8 e.text.length ++ (le16 0 ++ le32 0)) := by
  rw [Entry.middle, h]; rfl

theorem Entry.middle_normal {e : Entry} {kind : PromptKind} {tag : BitVec 16} {runId : BitVec 32}
    (h : e.cls = .normal kind tag runId) :
    e.middle = le8 kind.code ++ (le8 e.text.length ++ (le16 tag.toNat ++ le32 runId.toNat)) := by
  rw [Entry.middle, h]; rfl

@[simp] theorem Entry.length_middle (e : Entry) : e.middle.length = 8 := by
  rcases h : e.cls with _ | ⟨kind, tag, runId⟩
  · simp [Entry.middle_safety h]
  · simp [Entry.middle_normal h]

@[simp] theorem Entry.length_encode (e : Entry) : e.encode.length = 50 := by simp [Entry.encode_eq]

theorem Entry.middle_textLength {e : Entry} (h : e.text.length < 256) (r : List Byte) :
    byteAt (e.middle ++ r) 1 = e.text.length := by
  rcases hc : e.cls with _ | ⟨kind, tag, runId⟩
  · rw [Entry.middle_safety hc]; simp [byteAt_le8_of_lt h]
  · rw [Entry.middle_normal hc]; simp [byteAt_le8_of_lt h]

section slot

variable (e : Entry) (r : List Byte)

theorem Entry.encode_owner : byteAt (e.encode ++ r) 0 = e.owner.val := by
  simp [Entry.encode_eq, byteAt_le8_of_lt]

theorem Entry.encode_class : byteAt (e.encode ++ r) 1 = e.classCode := by
  have hc : e.classCode < 256 := by rw [Entry.classCode_eq]; split <;> decide
  simp [Entry.encode_eq, byteAt_le8_of_lt hc]

theorem Entry.encode_drop_two : (e.encode ++ r).drop 2 = e.middle ++ (padTo 40 0 e.text ++ r) := by
  simp only [Entry.encode_eq, List.append_assoc]
  rfl

theorem Entry.encode_drop_ten : (e.encode ++ r).drop 10 = padTo 40 0 e.text ++ r := by
  rw [show 10 = 2 + 8 from rfl, ← List.drop_drop, Entry.encode_drop_two, List.drop_left' e.length_middle]

theorem Entry.encode_textLength (h : e.text.length ≤ 40) : byteAt (e.encode ++ r) 3 = e.text.length := by
  rw [show 3 = 2 + 1 from rfl, ← byteAt_drop, Entry.encode_drop_two, Entry.middle_textLength (by omega)]

theorem Entry.encode_text (h : e.text.length ≤ 40) : ((e.encode ++ r).drop 10).take e.text.length = e.text := by
  rw [Entry.encode_drop_ten, take_padTo_append h]

variable {e}

theorem Entry.encode_safety (h : e.cls = .safety) : byteAt (e.encode ++ r) 1 = 0 ∧ byteAt (e.encode ++ r) 2 = 0 := by
  refine ⟨by rw [Entry.encode_class, Entry.classCode, Entry.isSafety, h]; rfl, ?_⟩
  rw [show 2 = 2 + 0 from rfl, ← byteAt_drop, Entry.encode_drop_two, Entry.middle_safety h]
  rfl

theorem Entry.encode_normal {kind : PromptKind} {tag : BitVec 16} {runId : BitVec 32} (h : e.cls = .normal kind tag runId) :
    byteAt (e.encode ++ r) 1 = 1 ∧ byteAt (e.encode ++ r) 2 = kind.code ∧ u16At (e.encode ++ r) 4 = tag.toNat ∧
      u32At (e.encode ++ r) 6 = runId.toNat := by
  have htag : tag.toNat < 65536 := tag.isLt
  refine ⟨by rw [Entry.encode_class, Entry.classCode, Entry.isSafety, h]; rfl, ?kind, ?tag, ?runId⟩
  case kind =>
    rw [show 2 = 2 + 0 from rfl, ← byteAt_drop, Entry.encode_drop_two, Entry.middle_normal h]
    simp [byteAt_le8_of_lt]
  case tag =>
    rw [show 4 = 2 + 2 from rfl, ← u16At_drop, Entry.encode_drop_two, Entry.middle_normal h]
    simp [u16At_le16_of_lt htag]
  case runId =>
    rw [show 6 = 2 + 4 from rfl, ← u32At_drop, Entry.encode_drop_two, Entry.middle_normal h]
    simp

end slot

/-! ## The display -/

/-- The header and the two lines of a display. -/
def Console.shownBytes (x : Console) : List Byte := x.headerBytes ++ (x.display.2.1 ++ x.display.2.2)

/-- The letter of an entry's class on the display (R161). -/
def Entry.letter (e : Entry) : Byte :=
  match e.cls with
  | .safety => 0x53
  | .normal .confirm _ _ => 0x43
  | .normal .ack _ _ => 0x41

section display

variable {x : Console}

theorem Console.display_nil (h : x.entries = []) : x.display = (none, padTo 20 0x20 [], padTo 20 0x20 []) := by
  rw [Console.display, h]

theorem Console.display_cons {e : Entry} {rest : List Entry} (h : x.entries = e :: rest) :
    x.display = (some (e.owner, e.letter), padTo 20 0x20 e.text, padTo 20 0x20 (e.text.drop 20)) := by
  rw [Console.display, h]; rfl

theorem Console.shownBytes_nil (h : x.entries = []) : x.shownBytes = [0, 0, 0] ++ List.replicate 40 0x20 := by
  rw [Console.shownBytes, Console.headerBytes, Console.display_nil h]; rfl

theorem Console.shownBytes_cons {e : Entry} {rest : List Entry} (h : x.entries = e :: rest) :
    x.shownBytes = [0x01, BitVec.ofNat 8 e.owner.val, e.letter] ++ (padTo 20 0x20 e.text ++ padTo 20 0x20 (e.text.drop 20)) := by
  rw [Console.shownBytes, Console.headerBytes, Console.display_cons h]; rfl

theorem Console.shownBytes_text {e : Entry} {rest : List Entry} (h : x.entries = e :: rest) (ht : e.text.length ≤ 40) :
    x.shownBytes = [0x01, BitVec.ofNat 8 e.owner.val, e.letter] ++ e.text ++ List.replicate (40 - e.text.length) 0x20 := by
  rw [Console.shownBytes_cons h, padTo_two_lines 0x20 ht, List.append_assoc]

@[simp] theorem Console.length_shownBytes : x.shownBytes.length = 43 := by
  rcases h : x.entries with _ | ⟨e, rest⟩
  · simp [Console.shownBytes_nil h]
  · simp [Console.shownBytes_cons h]

end display

/-! ## A button field -/

section button

variable {x : Console} {k : Button}

/-- What a button field says of the entry that a press is bound to. -/
def Console.boundBytes (x : Console) (r : Press) : List Byte :=
  match r.bound, x.boundEntry r with
  | none, _ => [0, 0, 0]
  | some _, none => le8 2 ++ [0, 0]
  | some _, some e => le8 1 ++ le8 e.owner.val ++ le8 e.classCode

theorem Console.buttonBytes_up (h : (x.button k).press = none) :
    x.buttonBytes k = flag (x.button k).down ++ [0, 0, 0, 0] := by
  rw [Console.buttonBytes]; simp only [h]

theorem Console.buttonBytes_press {r : Press} (h : (x.button k).press = some r) :
    x.buttonBytes k = flag (x.button k).down ++ (le8 r.phase.code ++ x.boundBytes r) := by
  rw [Console.buttonBytes]; simp only [h]; rfl

variable {r : Press}

theorem Console.boundBytes_unbound (h : r.bound = none) : x.boundBytes r = [0, 0, 0] := by
  rw [Console.boundBytes, h]

theorem Console.boundBytes_gone {n : Nat} (h : r.bound = some n) (hgone : x.boundEntry r = none) : x.boundBytes r = [2, 0, 0] := by
  rw [Console.boundBytes, h, hgone]; rfl

theorem Console.boundBytes_stands {n : Nat} {e : Entry} (h : r.bound = some n) (he : x.boundEntry r = some e) :
    x.boundBytes r = [1, BitVec.ofNat 8 e.owner.val, if e.isSafety then 0 else 1] := by
  rw [Console.boundBytes, h, he]
  simp only [Entry.classCode_eq, le8, List.cons_append, List.nil_append]
  cases e.isSafety <;> rfl

/-- Of several entries of one identity the first is the bound one. -/
theorem Console.boundEntry_first {before after : List Entry} {e : Entry} (h : x.entries = before ++ e :: after)
    (hbefore : ∀ g ∈ before, g.id ≠ e.id) (hb : r.bound = some e.id) : x.boundEntry r = some e := by
  rw [Console.boundEntry, hb, h]
  have hnone : before.find? (fun g => decide (g.id = e.id)) = none := List.find?_eq_none.mpr (by simpa using hbefore)
  simp [List.find?_append, hnone]

@[simp] theorem Console.length_boundBytes : (x.boundBytes r).length = 3 := by
  unfold Console.boundBytes
  split <;> rfl

@[simp] theorem Console.length_buttonBytes : (x.buttonBytes k).length = 5 := by
  rcases h : (x.button k).press with _ | r
  · simp [Console.buttonBytes_up h]
  · simp [Console.buttonBytes_press h]

theorem PressPhase.code_lt (c : PressPhase) : c.code < 256 := by cases c <;> decide

variable {data t : List Byte} {at_ : Nat} (hd : data.drop at_ = x.buttonBytes k ++ t)
include hd

theorem Console.field_down : byteAt data at_ = flagNat (x.button k).down := by
  rw [← Nat.add_zero at_, ← byteAt_drop, hd]
  rcases h : (x.button k).press with _ | r
  · simp [Console.buttonBytes_up h]
  · simp [Console.buttonBytes_press h]

theorem Console.field_up (h : (x.button k).press = none) : byteAt data (at_ + 1) = 0 ∧ (data.drop (at_ + 2)).take 3 = [0, 0, 0] := by
  rw [← byteAt_drop, ← List.drop_drop, hd, Console.buttonBytes_up h]
  exact ⟨rfl, rfl⟩

theorem Console.field_phase (h : (x.button k).press = some r) : byteAt data (at_ + 1) = r.phase.code := by
  rw [← byteAt_drop, hd, Console.buttonBytes_press h]
  simp [byteAt_le8_of_lt r.phase.code_lt]

theorem Console.field_bound (h : (x.button k).press = some r) : (data.drop (at_ + 2)).take 3 = x.boundBytes r := by
  rw [← List.drop_drop, hd, Console.buttonBytes_press h, ← List.append_assoc (flag _), List.append_assoc,
    List.drop_left' (by simp), List.take_left' Console.length_boundBytes]

end button

/-! ## The lamps -/

/-- The lamps of an ended run's verdict (R170). -/
def Verdict.lamps : Verdict → Lamp × Lamp × Lamp
  | .pass => (.steady, .off, .off)
  | .marginal => (.steady, .steady, .off)
  | .fail => (.off, .off, .steady)
  | .incomplete => (.off, .steady, .steady)

section lamps

variable {p : Part} {f : FixtureIx}

theorem Part.lampBytes_of {a b c : Lamp} (h : p.lamps f = (a, b, c)) :
    p.lampBytes f = [BitVec.ofNat 8 a.code, BitVec.ofNat 8 b.code, BitVec.ofNat 8 c.code] := by
  rw [Part.lampBytes, h]; rfl

@[simp] theorem Part.length_lampBytes : (p.lampBytes f).length = 3 := by simp [Part.lampBytes]

theorem Part.lamps_unfitted (h : p.isFitted f = false) : p.lamps f = (.off, .off, .off) := by
  simp [Part.lamps, h]

variable (hp : p.powered = true) (hf : p.isFitted f = true)
include hp hf

theorem Part.lamps_tripped (h : (p.fx f).supply.state = .tripped) : p.lamps f = (.off, .off, .fastFlash) := by
  simp [Part.lamps, hp, hf, h]

variable (hs : (p.fx f).supply.state ≠ .tripped)
include hs

theorem Part.lamps_none (h : (p.fx f).run.state = .none) : p.lamps f = (.off, .off, .off) := by
  simp [Part.lamps, Run.isOpen, hp, hf, hs, h]

theorem Part.lamps_halting (h : (p.fx f).run.state = .halting) : p.lamps f = (.off, .off, .slowFlash) := by
  simp [Part.lamps, hp, hf, hs, h]

theorem Part.lamps_ended (h : (p.fx f).run.state = .ended) : p.lamps f = (p.fx f).run.verdict.lamps := by
  cases hv : (p.fx f).run.verdict <;> simp [Part.lamps, Run.isOpen, Verdict.lamps, hp, hf, hs, h, hv]

/-- The lamps of an open run go by the console's list alone. -/
theorem Part.lamps_open (h : (p.fx f).run.isOpen = true) : p.lamps f =
    if (p.con (consoleFor f)).entries.head?.any (fun e => e.owner = f) then (.off, .fastFlash, .off)
    else if (p.con (consoleFor f)).entries.any (fun e => e.owner = f) then (.off, .slowFlash, .off)
    else (.off, .steady, .off) := by
  have hh : (p.fx f).run.state ≠ .halting := by
    rcases Run.isOpen_iff.mp h with h | h <;> simp [h]
  simp [Part.lamps, hp, hf, hs, hh, h]

end lamps

theorem servedBy_position (f : FixtureIx) : (servedBy (consoleFor f))[f.val % 4]? = some f := by
  revert f; decide

theorem length_servedBy (k : ConsoleId) : (servedBy k).length = 4 := by cases k <;> rfl

/-! ## The report -/

section report

variable {p : Part} {k : ConsoleId}

/-- The entry slots of a report. -/
def Console.slots (x : Console) : List Byte := padTo 400 0 (x.entries.flatMap Entry.encode)

@[simp] theorem Console.length_slots (x : Console) : x.slots.length = 400 := length_padTo _ _ _

@[simp] theorem Part.length_lampRows : ((servedBy k).flatMap p.lampBytes).length = 12 := by
  rw [length_flatMap_of_length fun _ => Part.length_lampBytes]
  cases k <;> rfl

theorem Part.consoleReport_eq (p : Part) (k : ConsoleId) :
    p.consoleReport k = BitVec.ofNat 8 (p.con k).longTime :: BitVec.ofNat 8 (p.con k).entries.length ::
      ((p.con k).slots ++ ((p.con k).shownBytes ++ ((p.con k).buttonBytes .pass ++ ((p.con k).buttonBytes .fail ++
        (flag (p.con k).stopLevel ++ (servedBy k).flatMap p.lampBytes))))) := by
  simp only [Part.consoleReport, Console.shownBytes, Console.slots, List.append_assoc]
  rfl

theorem Part.length_consoleReport : (p.consoleReport k).length = 468 := by
  simp [Part.consoleReport_eq, length_servedBy]

/-- The report of an asked part is the report of the part. -/
theorem Part.asked_consoleReport (p : Part) (a b : Byte) (k : ConsoleId) :
    (p.asked a b).consoleReport k = p.consoleReport k := by
  cases k <;> rfl

theorem Part.report_slots : (p.consoleReport k).drop 2 = (p.con k).slots ++ ((p.con k).shownBytes ++
    ((p.con k).buttonBytes .pass ++ ((p.con k).buttonBytes .fail ++ (flag (p.con k).stopLevel ++
      (servedBy k).flatMap p.lampBytes)))) := by
  rw [Part.consoleReport_eq]; rfl

theorem Part.report_shown : (p.consoleReport k).drop 402 = (p.con k).shownBytes ++
    ((p.con k).buttonBytes .pass ++ ((p.con k).buttonBytes .fail ++ (flag (p.con k).stopLevel ++
      (servedBy k).flatMap p.lampBytes))) := by
  rw [show 402 = 2 + 400 from rfl, ← List.drop_drop, Part.report_slots, List.drop_left' (Console.length_slots _)]

theorem Part.report_pass : (p.consoleReport k).drop 445 = (p.con k).buttonBytes .pass ++ ((p.con k).buttonBytes .fail ++
    (flag (p.con k).stopLevel ++ (servedBy k).flatMap p.lampBytes)) := by
  rw [show 445 = 402 + 43 from rfl, ← List.drop_drop, Part.report_shown, List.drop_left' Console.length_shownBytes]

theorem Part.report_fail : (p.consoleReport k).drop 450 =
    (p.con k).buttonBytes .fail ++ (flag (p.con k).stopLevel ++ (servedBy k).flatMap p.lampBytes) := by
  rw [show 450 = 445 + 5 from rfl, ← List.drop_drop, Part.report_pass, List.drop_left' Console.length_buttonBytes]

theorem Part.report_stop : (p.consoleReport k).drop 455 = flag (p.con k).stopLevel ++ (servedBy k).flatMap p.lampBytes := by
  rw [show 455 = 450 + 5 from rfl, ← List.drop_drop, Part.report_fail, List.drop_left' Console.length_buttonBytes]

theorem Part.report_lamps : (p.consoleReport k).drop 456 = (servedBy k).flatMap p.lampBytes := by
  rw [show 456 = 455 + 1 from rfl, ← List.drop_drop, Part.report_stop, List.drop_left' (length_flag _)]

/-- Where each entry of the list stands. -/
theorem Part.report_entry {n : Nat} {e : Entry} (h8 : (p.con k).entries.length ≤ 8) (he : (p.con k).entries[n]? = some e) :
    ∃ r, (p.consoleReport k).drop (2 + 50 * n) = e.encode ++ r := by
  have hn : n < (p.con k).entries.length := (List.getElem?_eq_some_iff.mp he).1
  have hlen := length_flatMap_of_length Entry.length_encode (p.con k).entries
  have hslots : (p.con k).slots = (p.con k).entries.flatMap Entry.encode ++
      List.replicate (400 - ((p.con k).entries.flatMap Entry.encode).length) 0 := by
    rw [Console.slots, padTo, List.take_of_length_le (by omega)]
  rw [← List.drop_drop, Part.report_slots, hslots, List.append_assoc, List.drop_append_of_le_length (by omega),
    drop_flatMap_of_length Entry.length_encode he, List.append_assoc]
  exact ⟨_, rfl⟩

/-- Where each fixture's lamps stand. -/
theorem Part.report_lamp {f : FixtureIx} (hf : consoleFor f = k) :
    ((p.consoleReport k).drop (456 + 3 * (f.val % 4))).take 3 = p.lampBytes f := by
  subst hf
  rw [← List.drop_drop, Part.report_lamps,
    drop_flatMap_of_length (f := p.lampBytes) (fun _ => Part.length_lampBytes) (servedBy_position f),
    List.take_left' Part.length_lampBytes]

end report

/-! ## The request -/

theorem Part.consoleStatus_report (p : Part) {b : Byte} {k : ConsoleId} (h : consoleOfCode b.toNat = some k) :
    p.consoleStatus [b] = p.accept (p.consoleReport k) := by
  rw [Part.consoleStatus, Part.ofLength_of_eq (n := 1) (payload := [b]) rfl, show byteAt [b] 0 = b.toNat from rfl, h]

theorem Part.consoleStatus_refused (p : Part) {b : Byte} (h : 2 ≤ b.toNat) : p.consoleStatus [b] = p.refuse .badField := by
  rw [Part.consoleStatus, Part.ofLength_of_eq (n := 1) (payload := [b]) rfl, show byteAt [b] 0 = b.toNat from rfl,
    consoleOfCode_none h]

theorem consoleOfCode_consoleCode (k : ConsoleId) : consoleOfCode (consoleCode k) = some k := by cases k <;> rfl

theorem exec_consoleStatus_refused {s : State} (hl : s.Listening) (tag : Byte) {b : Byte} (h : 2 ≤ b.toNat) :
    exec (.consoleStatus tag [b]) s = .next (s.withPart (s.part.answered 0xE1 tag [0x03])) :=
  request_refused hl (by decide) (Part.consoleStatus_refused (s.part.asked 0x61 tag) h)

theorem exec_consoleStatus {s : State} (hl : s.Listening) (tag : Byte) {b : Byte} {k : ConsoleId} (h : b.toNat = consoleCode k) :
    exec (.consoleStatus tag [b]) s = .next (s.withPart (s.part.answered 0xE1 tag (0x00 :: s.part.consoleReport k))) := by
  have hreport := Part.consoleStatus_report (s.part.asked 0x61 tag) (h ▸ consoleOfCode_consoleCode k)
  rw [Part.asked_consoleReport, Part.accept_eq] at hreport
  exact request_answered hl (by decide) s.part hreport hl.free hl.noRequest hl.noReply

/-! ## The clauses of the statement -/

section clauses

variable {p : Part} {k : ConsoleId}

theorem Part.report_entry_fields {n : Nat} {e : Entry} (h8 : (p.con k).entries.length ≤ 8) (he : (p.con k).entries[n]? = some e) :
    byteAt (p.consoleReport k) (2 + 50 * n) = e.owner.val ∧
    (e.text.length ≤ 40 → byteAt (p.consoleReport k) (2 + 50 * n + 3) = e.text.length ∧
      ((p.consoleReport k).drop (2 + 50 * n + 10)).take e.text.length = e.text) ∧
    (e.cls = .safety → byteAt (p.consoleReport k) (2 + 50 * n + 1) = 0 ∧ byteAt (p.consoleReport k) (2 + 50 * n + 2) = 0) ∧
    (∀ kind t runId, e.cls = .normal kind t runId → byteAt (p.consoleReport k) (2 + 50 * n + 1) = 1 ∧
      byteAt (p.consoleReport k) (2 + 50 * n + 2) = kind.code ∧ u16At (p.consoleReport k) (2 + 50 * n + 4) = t.toNat ∧
      u32At (p.consoleReport k) (2 + 50 * n + 6) = runId.toNat) := by
  obtain ⟨r, hr⟩ := Part.report_entry h8 he
  have howner := byteAt_drop (p.consoleReport k) (2 + 50 * n) 0
  rw [hr, Nat.add_zero] at howner
  simp only [← byteAt_drop _ (2 + 50 * n), ← u16At_drop _ (2 + 50 * n), ← u32At_drop _ (2 + 50 * n), ← List.drop_drop, hr]
  exact ⟨howner.symm.trans (e.encode_owner r), fun h => ⟨e.encode_textLength r h, e.encode_text r h⟩, Entry.encode_safety r,
    fun _ _ _ => Entry.encode_normal r⟩

theorem Part.report_display {l : List Byte} (h : (p.con k).shownBytes = l) : ((p.consoleReport k).drop 402).take 43 = l := by
  rw [Part.report_shown, List.take_left' Console.length_shownBytes, h]

theorem Part.report_stop_level : byteAt (p.consoleReport k) 455 = flagNat (p.con k).stopLevel := by
  rw [← Nat.add_zero 455, ← byteAt_drop, Part.report_stop, byteAt_append_left (by simp), byteAt_flag]

/-- The lamps of a fixture in the report, given as their states. -/
theorem Part.report_lamp_states {f : FixtureIx} (hf : consoleFor f = k) {l : Lamp × Lamp × Lamp} (h : p.lamps f = l) :
    ((p.consoleReport k).drop (456 + 3 * (f.val % 4))).take 3 =
      [BitVec.ofNat 8 l.1.code, BitVec.ofNat 8 l.2.1.code, BitVec.ofNat 8 l.2.2.code] :=
  (Part.report_lamp hf).trans (Part.lampBytes_of h)

section button

variable {x : Console} {b : Button} {data t : List Byte} {at_ : Nat} (hd : data.drop at_ = x.buttonBytes b ++ t)
include hd

theorem Console.field_pressed {r : Press} (hr : (x.button b).press = some r) :
    (r.bound = none → (data.drop (at_ + 2)).take 3 = [0, 0, 0]) ∧
    (∀ n, r.bound = some n → (∀ e ∈ x.entries, e.id ≠ n) → (data.drop (at_ + 2)).take 3 = [2, 0, 0]) ∧
    ∀ before e after, x.entries = before ++ e :: after → (∀ g ∈ before, g.id ≠ e.id) → r.bound = some e.id →
      (data.drop (at_ + 2)).take 3 = [1, BitVec.ofNat 8 e.owner.val, if e.isSafety then 0 else 1] := by
  rw [Console.field_bound hd hr]
  refine ⟨Console.boundBytes_unbound, fun n hn hgone => Console.boundBytes_gone hn (Console.boundEntry_gone fun e he hb => ?_),
    fun _ e _ hx hbefore hb => Console.boundBytes_stands hb (Console.boundEntry_first hx hbefore hb)⟩
  exact hgone e he (Option.some.inj (hb.symm.trans hn))

end button

section openRun

variable {f : FixtureIx} (hp : p.powered = true) (hf : p.isFitted f = true) (hs : (p.fx f).supply.state ≠ .tripped)
  (ho : (p.fx f).run.isOpen = true)
include hp hf hs ho

theorem Part.lamps_open_unlisted (h : ∀ e ∈ (p.con (consoleFor f)).entries, e.owner ≠ f) : p.lamps f = (.off, .steady, .off) := by
  rw [Part.lamps_open hp hf hs ho]
  rcases hx : (p.con (consoleFor f)).entries with _ | ⟨e, rest⟩
  · simp
  · rw [hx] at h
    obtain ⟨he, hrest⟩ := List.forall_mem_cons.mp h
    simpa [he] using hrest

theorem Part.lamps_open_top {e : Entry} {rest : List Entry} (hx : (p.con (consoleFor f)).entries = e :: rest) (he : e.owner = f) :
    p.lamps f = (.off, .fastFlash, .off) := by
  rw [Part.lamps_open hp hf hs ho, hx]
  simp [he]

theorem Part.lamps_open_below {e g : Entry} {rest : List Entry} (hx : (p.con (consoleFor f)).entries = e :: rest)
    (he : e.owner ≠ f) (hg : g ∈ rest) (hgf : g.owner = f) : p.lamps f = (.off, .slowFlash, .off) := by
  rw [Part.lamps_open hp hf hs ho, hx, if_neg (by simpa using he), if_pos (by simpa [he] using ⟨g, hg, hgf⟩)]

end openRun

end clauses

/-- Settles O52: the report is cut at its offsets, and each field read on its own. -/
theorem consoleStatusReports : Obligations.ConsoleStatusReports := by
  unfold Obligations.ConsoleStatusReports
  intro s tag b hl
  refine ⟨exec_consoleStatus_refused hl tag, fun k hb => ⟨s.part.consoleReport k, exec_consoleStatus hl tag hb,
    Part.length_consoleReport, ?longTime, ?count, fun h8 n e => Part.report_entry_fields h8,
    fun h => Part.report_display (Console.shownBytes_nil h), fun e rest h ht => ?display, fun button => ?button,
    Part.report_stop_level, fun f hf => ⟨fun hu => Part.report_lamp_states hf (Part.lamps_unfitted hu),
      fun hfit ht => Part.report_lamp_states hf (Part.lamps_tripped hl.powered hfit ht), fun hfit hs => ?lamps⟩⟩⟩
  case longTime => rw [Part.consoleReport_eq]; rfl
  case count => rw [Part.consoleReport_eq]; rfl
  case display =>
    refine Part.report_display ((Console.shownBytes_text h ht).trans ?_)
    rcases e with ⟨id, owner, _ | ⟨_ | _, t, runId⟩, text⟩ <;> rfl
  case button =>
    cases button with
    | pass =>
      refine ⟨Console.field_down Part.report_pass, Console.field_up Part.report_pass, fun r hr =>
        ⟨(Console.field_phase Part.report_pass hr).trans ?_, Console.field_pressed Part.report_pass hr⟩⟩
      cases r.phase <;> rfl
    | fail =>
      refine ⟨Console.field_down Part.report_fail, Console.field_up Part.report_fail, fun r hr =>
        ⟨(Console.field_phase Part.report_fail hr).trans ?_, Console.field_pressed Part.report_fail hr⟩⟩
      cases r.phase <;> rfl
  case lamps =>
    subst hf
    refine ⟨fun h => ?none, fun h => ?halting, fun ho h => ?unlisted, fun ho h => ?top, fun ho h => ?below, fun h => ?ended⟩
    case none => exact Part.report_lamp_states rfl (Part.lamps_none hl.powered hfit hs h)
    case halting => exact Part.report_lamp_states rfl (Part.lamps_halting hl.powered hfit hs h)
    case unlisted => exact Part.report_lamp_states rfl (Part.lamps_open_unlisted hl.powered hfit hs ho h)
    case top =>
      obtain ⟨e, rest, hx, he⟩ := h
      exact Part.report_lamp_states rfl (Part.lamps_open_top hl.powered hfit hs ho hx he)
    case below =>
      obtain ⟨e, rest, hx, he, g, hg, hgf⟩ := h
      exact Part.report_lamp_states rfl (Part.lamps_open_below hl.powered hfit hs ho hx he hg hgf)
    case ended =>
      refine (Part.report_lamp_states rfl (Part.lamps_ended hl.powered hfit hs h)).trans ?_
      cases (s.part.fx f).run.verdict <;> rfl

end Sys2Proof.Machine
end
